-- ==== Sys2Proof/Word.lean ====
section
/-! DEFINITION. The word types of the LFSR cipher block (spec/00_scope.md R10, R11). All values are unsigned. -/

namespace Sys2Proof

/-- A `Bit` is 0 (`false`) or 1 (`true`): R10. -/
abbrev Bit := Bool

/-- A generator register, a seed: R10, R21. -/
abbrev Bits32 := BitVec 32

/-- The input buffer and the accumulators: R10, R30. -/
abbrev Byte := BitVec 8

/-- One command word, and the response data (`CMD_W` = 48): R70, R78. -/
abbrev CmdWord := BitVec 48

end Sys2Proof
end

