-- ==== Sys2Proof/Config.lean ====
section
/-! DEFINITION. What is fixed when the block is built (spec/00_scope.md R7, R42), and the free values: constants
without a body, so that no proof can know a value of them. -/

namespace Sys2Proof

/-- Which end of a register is the output end: spec/40_generator.md R101. -/
inductive Orient where
  /-- Output at bit 0, feedback enters at bit 31. -/
  | lsbOut
  /-- Output at bit 31, feedback enters at bit 0. -/
  | msbOut
  deriving DecidableEq, Repr

/-- The three generator instances: spec/10_state.md R27. -/
inductive GenSel where
  | gen
  | tx
  | rx
  deriving DecidableEq, Repr

/-- The observation ports of spec/10_state.md R45, each generator's under the generator's name. -/
inductive ObservationPort where
  | reg (g : GenSel)
  | count (g : GenSel)
  | outV (g : GenSel)
  | out (g : GenSel)
  | fbV (g : GenSel)
  | fb (g : GenSel)
  | histLen (g : GenSel)
  | hist (g : GenSel)
  | cursor
  | phase
  | inp
  | accP
  | accE
  | accD
  | pulses
  | sync
  deriving DecidableEq, Repr

namespace Config

/-- The tap positions, immutable configuration: R7, R26. -/
def taps : List Nat := [1, 5, 6, 31]

/-- Capacity of a generator's output history, `HIST_CAP`: R7, R25. -/
def histCap : Nat := 64

/-- Bits of one cipher unit, `UNIT`: R7. -/
def unit : Nat := 8

/-- Fewest and most extra `rx` clocks of DESYNC, `DESYNC_MIN` and `DESYNC_MAX`: R7, R151. -/
def desyncMin : Nat := 3

@[inherit_doc desyncMin] def desyncMax : Nat := 10

/-- The seed used when none is supplied, `DEFAULT_SEED`: R7, R8. -/
def defaultSeed : Bits32 := 0xB38F0F83#32

/-- This hardware's `ORIENT`: R7, R101. The model keeps both values: `State.orient` is the parameter, and this is
its value in `State.reset` (log 5). -/
def orient : Orient := .lsbOut

/-- `STEP_CNT_W`, the OPEN width of the step-count port: R7, R45. No value is given, so it has no body (log 6). -/
opaque stepCntW : Nat

/-- FREE VALUE. What `<g>_out` shows while nothing was stepped ("any value": R45, R47), at the edge of that number
(log 7). -/
opaque freeOutBit : GenSel → Nat → Bit

/-- FREE VALUE. What `<g>_fb` shows while nothing was stepped: R45, R47 (log 7). -/
opaque freeFbBit : GenSel → Nat → Bit

/-- FREE VALUE. What an observation port of `w` bits shows while `cmd_ready` is 0, when the ports are not defined: R46
(log 18), at the edge of that number. -/
opaque freePort : ObservationPort → (w : Nat) → Nat → BitVec w

/-- FREE VALUE. What `rsp_status` shows while `rsp_valid` is 0, of which the spec states nothing: R81 (log 8). -/
opaque freeRspStatus : Nat → BitVec 2

/-- FREE VALUE. What `rsp_data` shows while `rsp_valid` is 0: R81 (log 8). -/
opaque freeRspData : Nat → BitVec 48

end Config

end Sys2Proof
end

