-- ==== Sys2Proof/Syntax.lean ====
section
/-! DEFINITION. The command set: one constructor per row of spec/opcode_table.json (spec/30_encoding.md R71). -/

namespace Sys2Proof

/-- The commands. An operand's type has exactly the values its field can hold (R70, R73), so every term of this type
is a legal command: there is no ill-formed `Instr`. -/
inductive Instr where
  /-- Clock the standalone generator once: R110. -/
  | gstep
  /-- Reset the standalone generator to its stored seed: R111. -/
  | greset
  /-- Reset the standalone generator with a new seed, `SEED` = w[47:16]: R112. -/
  | gseed (seed : Bits32)
  /-- Read the register of `gen`: R113. -/
  | peekGen
  /-- Read the register of `tx`: R113. -/
  | peekTx
  /-- Read the register of `rx`: R113. -/
  | peekRx
  /-- Load the plaintext buffer, `D` = w[15:8]: R121. -/
  | setin (d : Byte)
  /-- Process one bit of the current byte: R122. -/
  | submit
  /-- Finish the current byte: R124. -/
  | complete
  /-- Clock `rx` alone a drawn number of times: R151. -/
  | desync
  /-- Reset the session to the default seed: R125. -/
  | sreset
  /-- Reset the session to a given seed, `SEED` = w[47:16]: R126. -/
  | sseed (seed : Bits32)
  deriving DecidableEq, Repr

end Sys2Proof
end

