-- ==== Sys2Proof/WellFormed.lean ====
section
/-! DEFINITION. When a 48-bit word is a legal command word, as the match and mask pairs of spec/opcode_table.json say
it (spec/30_encoding.md R72: "the match/mask pairs of `opcode_table.json` decide it"). The decoder is written from
R75 instead; that the two agree is a statement. Every term of `Instr` is well formed by its type. -/

namespace Sys2Proof

/-- One row of the opcode table: a word is this command when its bits under `mask` are `bits`. -/
structure OpcodeRow where
  mnemonic : String
  bits : CmdWord
  mask : CmdWord
  deriving DecidableEq, Repr

def OpcodeRow.accepts (row : OpcodeRow) (w : CmdWord) : Bool := w &&& row.mask == row.bits

/-- The row of each command, numbers as spec/opcode_table.json has them. -/
def Instr.row : Instr → OpcodeRow
  | .gstep    => ⟨"GSTEP",    0x000000000001#48, 0xFFFFFFFFFFFF#48⟩
  | .greset   => ⟨"GRESET",   0x000000000002#48, 0xFFFFFFFFFFFF#48⟩
  | .gseed _  => ⟨"GSEED",    0x000000000003#48, 0x00000000FFFF#48⟩
  | .peekGen  => ⟨"PEEK_gen", 0x000000000004#48, 0xFFFFFFFFFFFF#48⟩
  | .peekTx   => ⟨"PEEK_tx",  0x000000000014#48, 0xFFFFFFFFFFFF#48⟩
  | .peekRx   => ⟨"PEEK_rx",  0x000000000024#48, 0xFFFFFFFFFFFF#48⟩
  | .setin _  => ⟨"SETIN",    0x000000000005#48, 0xFFFFFFFF00FF#48⟩
  | .submit   => ⟨"SUBMIT",   0x000000000006#48, 0xFFFFFFFFFFFF#48⟩
  | .complete => ⟨"COMPLETE", 0x000000000007#48, 0xFFFFFFFFFFFF#48⟩
  | .desync   => ⟨"DESYNC",   0x000000000008#48, 0xFFFFFFFFFFFF#48⟩
  | .sreset   => ⟨"SRESET",   0x000000000009#48, 0xFFFFFFFFFFFF#48⟩
  | .sseed _  => ⟨"SSEED",    0x00000000000A#48, 0x00000000FFFF#48⟩

/-- The opcode table, in its own order. -/
def opcodeRows : List OpcodeRow :=
  [Instr.gstep, .greset, .gseed 0, .peekGen, .peekTx, .peekRx, .setin 0, .submit, .complete, .desync, .sreset,
    .sseed 0].map Instr.row

/-- A word is a legal command word when some row of the table accepts it: R72. -/
def legalWord (w : CmdWord) : Bool := opcodeRows.any (·.accepts w)

end Sys2Proof
end

