-- ==== Sys2Proof/Decode.lean ====
section
/-! DEFINITION. Decoding and encoding of command words (spec/30_encoding.md R70 to R75). A command word is taken whole:
it is never split into bytes, so there is no byte order (spec/20_memory.md R53). -/

namespace Sys2Proof

/-- Why a word is illegal: the causes of R74. The block reports them all as `REJ_ILLEGAL`; the names are the model's
(log 12). -/
inductive Illegal where
  /-- `RSV` ≠ 0. -/
  | reservedBits
  /-- `OP` is 0x0 or 0xB to 0xF. -/
  | reservedOpcode
  /-- PEEK with `G` = 3. -/
  | reservedGenerator
  /-- A defined `OP` with a nonzero field that it does not use. -/
  | unusedField
  deriving DecidableEq, Repr

namespace Field

/-- `OP` = w[3:0]: R70. -/
def op (w : CmdWord) : BitVec 4 := w.extractLsb' 0 4

/-- `G` = w[5:4]: R70. -/
def g (w : CmdWord) : BitVec 2 := w.extractLsb' 4 2

/-- `RSV` = w[7:6]: R70. -/
def rsv (w : CmdWord) : BitVec 2 := w.extractLsb' 6 2

/-- `D` = w[15:8]: R70, R73. -/
def d (w : CmdWord) : Byte := w.extractLsb' 8 8

/-- `SEED` = w[47:16]: R70, R73. -/
def seed (w : CmdWord) : Bits32 := w.extractLsb' 16 32

/-- The word with these fields and `RSV` = 0: R70. -/
def assemble (op : BitVec 4) (g : BitVec 2) (d : Byte) (seed : Bits32) : CmdWord :=
  seed ++ d ++ 0#2 ++ g ++ op

end Field

/-- The command `i` if the fields it does not use are 0: R72. -/
def whenUnusedZero (zero : Bool) (i : Instr) : Except Illegal Instr :=
  if zero then .ok i else .error .unusedField

/-- PEEK's target from `G`, once `D` and `SEED` are known to be 0: R73, R75. -/
def peekOf (g : BitVec 2) (zero : Bool) : Except Illegal Instr :=
  match g.toNat with
  | 0 => whenUnusedZero zero .peekGen
  | 1 => whenUnusedZero zero .peekTx
  | 2 => whenUnusedZero zero .peekRx
  | _ => .error .reservedGenerator

/-- `Decode`, total on every word: R75. -/
def decode (w : CmdWord) : Except Illegal Instr :=
  let g0 := Field.g w == 0#2
  let d0 := Field.d w == 0#8
  let seed0 := Field.seed w == 0#32
  if Field.rsv w ≠ 0#2 then .error .reservedBits
  else match (Field.op w).toNat with
    | 0x1 => whenUnusedZero (g0 && d0 && seed0) .gstep
    | 0x2 => whenUnusedZero (g0 && d0 && seed0) .greset
    | 0x3 => whenUnusedZero (g0 && d0) (.gseed (Field.seed w))
    | 0x4 => peekOf (Field.g w) (d0 && seed0)
    | 0x5 => whenUnusedZero (g0 && seed0) (.setin (Field.d w))
    | 0x6 => whenUnusedZero (g0 && d0 && seed0) .submit
    | 0x7 => whenUnusedZero (g0 && d0 && seed0) .complete
    | 0x8 => whenUnusedZero (g0 && d0 && seed0) .desync
    | 0x9 => whenUnusedZero (g0 && d0 && seed0) .sreset
    | 0xA => whenUnusedZero (g0 && d0) (.sseed (Field.seed w))
    | _   => .error .reservedOpcode

/-- The word of a command, from the opcode map of R71 and the fields of R70. -/
def encode : Instr → CmdWord
  | .gstep      => Field.assemble 0x1 0 0 0
  | .greset     => Field.assemble 0x2 0 0 0
  | .gseed seed => Field.assemble 0x3 0 0 seed
  | .peekGen    => Field.assemble 0x4 0 0 0
  | .peekTx     => Field.assemble 0x4 1 0 0
  | .peekRx     => Field.assemble 0x4 2 0 0
  | .setin d    => Field.assemble 0x5 0 d 0
  | .submit     => Field.assemble 0x6 0 0 0
  | .complete   => Field.assemble 0x7 0 0 0
  | .desync     => Field.assemble 0x8 0 0 0
  | .sreset     => Field.assemble 0x9 0 0 0
  | .sseed seed => Field.assemble 0xA 0 0 seed

/-- The command word whose low `nbits` bits are those of `w` and whose bits above are 0: a whole word, since every
command has 48 bits (R70). -/
def tableWord (nbits w : Nat) : CmdWord := BitVec.ofNat 48 (w % 2 ^ nbits)

/-- What the decoder reads from the word with bits `w`, bit 0 its least significant (log 14). -/
def decodeTableWord (nbits w : Nat) : Option Instr :=
  if nbits ≤ 48 then (decode (tableWord nbits w)).toOption else none

end Sys2Proof
end

