-- ==== Sys2Proof/Machine/State.lean ====
section
/-! DEFINITION. The state of the block (spec/10_state.md), as plain data, and its value after reset (R47). -/

namespace Sys2Proof.Machine

/-- A generator instance: R20. -/
structure Generator where
  /-- The register: R21. -/
  reg : Bits32
  /-- The seed a reset without a seed returns to: R22. -/
  seed : Bits32
  /-- Steps since the last construct or reset, unbounded: R23. -/
  count : Nat
  /-- Output bit of the most recent step: R24. -/
  lastOut : Option Bit
  /-- Feedback bit of the most recent step: R24. -/
  lastFb : Option Bit
  /-- Output bits of the most recent steps, oldest first: R25. -/
  hist : List Bit
  deriving DecidableEq, Repr

/-- What one SUBMIT records: R34. -/
structure PulseRecord where
  index : Fin 8
  p : Bit
  kTx : Bit
  e : Bit
  kRx : Bit
  d : Bit
  matched : Bit
  deriving DecidableEq, Repr

/-- The bit cursor, 0 to 8: R32. -/
abbrev Cursor := Fin 9

/-- The cipher session: R30. -/
structure Session where
  /-- The transmit-side generator: R27. -/
  tx : Generator
  /-- The receive-side generator: R27. -/
  rx : Generator
  /-- The input bit buffer; entry `j` is bit `7 - j`: R31. -/
  inp : Byte
  cursor : Cursor
  /-- Plaintext, encrypted and decrypted bits of the current byte: R33. -/
  accP : Byte
  accE : Byte
  accD : Byte
  /-- The pulse history of the current byte, oldest first: R35. -/
  pulses : List PulseRecord
  /-- The synchronization flag, SYNCED is `true`: R36, R150. -/
  sync : Bit
  deriving DecidableEq, Repr

/-- The status of a response: R77. -/
inductive Status where
  | ok
  | rejState
  | rejIllegal
  deriving DecidableEq, Repr

/-- A response, driven on `rsp_status` and `rsp_data` while `rsp_valid` is 1: R77, R78, R81. -/
structure Response where
  status : Status
  data : CmdWord
  deriving DecidableEq, Repr

/-- The input pins at one edge at which no command is in flight: R81, R180 (log 1). -/
structure PortInput where
  /-- `rst` at the edge: R180. -/
  rst : Bit
  /-- `rst` became 1 while the command accepted at this edge was in flight: R181 (log 3). -/
  rstInFlight : Bit
  cmdValid : Bit
  cmdWord : CmdWord
  desyncRnd : BitVec 3
  deriving DecidableEq, Repr

/-- The state of the block, between commands (R46). -/
structure State where
  /-- `ORIENT`, fixed when the block is built: R101 (log 5). No command writes it. -/
  orient : Orient
  /-- The standalone generator: R3, R27. -/
  gen : Generator
  session : Session
  /-- The response of the last edge; `none` is `rsp_valid` = 0: R81. -/
  rsp : Option Response
  /-- The input pins as sampled at the last edge: R81. -/
  pins : PortInput
  /-- MODEL'S OWN. What the host will drive at the coming edges, the next one first (log 1). -/
  inputs : List PortInput
  /-- MODEL'S OWN. Edges taken so far, the index of the free values (log 7). -/
  tick : Nat
  deriving DecidableEq, Repr

/-- Why the machine stops with a fault: never. R160: the block never traps, never halts and has no fault state, so
this type is empty (log 11). -/
inductive Fault where
  deriving DecidableEq, Repr

/-- Why an instruction has no meaning. -/
inductive Refusal where
  /-- Raised by an arm of `exec` whose instruction is not modelled yet. Safe: it stops. No arm raises it: every
  command has its meaning (log 11). -/
  | notModelled (mnemonic : String)
  deriving DecidableEq, Repr

/-- A generator right after reset: R47. -/
def Generator.reset : Generator where
  reg := 0xB38F0F83#32
  seed := 0xB38F0F83#32
  count := 0
  lastOut := none
  lastFb := none
  hist := []

/-- The session right after reset: R47. -/
def Session.reset : Session where
  tx := Generator.reset
  rx := Generator.reset
  inp := 0x00#8
  cursor := 0
  accP := 0x00#8
  accE := 0x00#8
  accD := 0x00#8
  pulses := []
  sync := true

/-- Pins of a host that presents nothing. DESIGN CHOICE: their value before the first edge is the model's (log 9). -/
def PortInput.idle : PortInput where
  rst := false
  rstInFlight := false
  cmdValid := false
  cmdWord := 0#48
  desyncRnd := 0#3

/-- The block right after reset, nothing presented: R47. -/
def State.reset : State where
  orient := Config.orient
  gen := Generator.reset
  session := Session.reset
  rsp := none
  pins := PortInput.idle
  inputs := []
  tick := 0

/-- Replace the standalone generator. -/
def State.setGen (s : State) (g : Generator) : State := { s with gen := g }

/-- Replace the session. -/
def State.setSession (s : State) (S : Session) : State := { s with session := S }

/-- Replace the response. -/
def State.setRsp (s : State) (r : Option Response) : State := { s with rsp := r }

end Sys2Proof.Machine
end

