-- ==== Sys2Proof/Machine/Ops.lean ====
section
/-! DEFINITION. The shared operations: stepping, constructing, resetting and reading a generator
(spec/40_generator.md), ending a command with a response (spec/00_scope.md R12), and the reset pin
(spec/70_reset_and_hazards.md R180). The block has no memory (R50) and takes no exceptions (R160, R166): `reject` is
what it does in their place. -/

namespace Sys2Proof.Machine

/-- `Feedback(r)`, the XOR of the tap bits: R100. -/
def feedback (r : Bits32) : Bit := Config.taps.foldl (fun acc i => acc ^^ r.getLsbD i) false

/-- The bit a step expels, at the output end: R101, R102. -/
def outputBit (o : Orient) (r : Bits32) : Bit :=
  match o with
  | .lsbOut => r.getLsbD 0
  | .msbOut => r.getLsbD 31

/-- The register after a step: shifted one place toward the output end, the feedback bit at the vacated end: R102. -/
def nextReg (o : Orient) (r : Bits32) : Bits32 :=
  match o with
  | .lsbOut => BitVec.ofBool (feedback r) ++ r.extractLsb' 1 31
  | .msbOut => r.extractLsb' 0 31 ++ BitVec.ofBool (feedback r)

/-- The register after `n` steps. -/
def nextRegs (o : Orient) : Nat → Bits32 → Bits32
  | 0, r => r
  | n + 1, r => nextRegs o n (nextReg o r)

/-- `Push64`: append, evicting the oldest entry when full: R104. A longer history than 64 does not occur (log 10). -/
def pushHist (h : List Bit) (b : Bit) : List Bit :=
  if h.length < Config.histCap then h ++ [b] else h.tail ++ [b]

/-- `GenStep`: one step of a generator instance: R103. Its triple is `nextReg`, `outputBit` and `feedback` of the
register before it. -/
def Generator.step (o : Orient) (g : Generator) : Generator where
  reg := nextReg o g.reg
  seed := g.seed
  count := g.count + 1
  lastOut := some (outputBit o g.reg)
  lastFb := some (feedback g.reg)
  hist := pushHist g.hist (outputBit o g.reg)

/-- `n` steps of a generator instance: the loop of R151. -/
def Generator.steps (o : Orient) : Nat → Generator → Generator
  | 0, g => g
  | n + 1, g => Generator.steps o n (g.step o)

/-- `Construct` from a seed, zero included: R105. Also the reset with a seed: R107. -/
def Generator.construct (seed : Bits32) : Generator where
  reg := seed
  seed := seed
  count := 0
  lastOut := none
  lastFb := none
  hist := []

/-- `ResetGen` without a seed: R106. -/
def Generator.restart (g : Generator) : Generator := Generator.construct g.seed

/-- `PeekBits`: R108. -/
def Generator.peekBits (g : Generator) : Bits32 := g.reg

/-- The session a session reset leaves: R125, R126. -/
def Session.fresh (seed : Bits32) : Session where
  tx := Generator.construct seed
  rx := Generator.construct seed
  inp := 0
  cursor := 0
  accP := 0
  accE := 0
  accD := 0
  pulses := []
  sync := true

/-- The cursor advanced by 1; it never passes 8 (R40). At 8 no command advances it (R122, log 10). -/
def Cursor.next (c : Cursor) : Cursor := if h : c.val < 8 then ⟨c.val + 1, by omega⟩ else c

/-- `respond(OK, data)`: R12, R77. -/
def respond (s : State) (data : CmdWord) : Host.Outcome State Fault Refusal :=
  .next (s.setRsp (some ⟨.ok, data⟩))

/-- `reject(code)`: the status, data 0, and no state changed: R12, R77, R160. -/
def reject (s : State) (code : Status) : Host.Outcome State Fault Refusal :=
  .next (s.setRsp (some ⟨code, 0⟩))

/-- What an edge with `rst` = 1 does: every field of the block takes its reset value, and there is no response:
R47, R180, R181 (log 17). -/
def resetBlock (s : State) : State :=
  { s with
    gen := Generator.construct Config.defaultSeed
    session := Session.fresh Config.defaultSeed
    rsp := none }

end Sys2Proof.Machine
end

