-- ==== Sys2Proof/Machine/Operands.lean ====
section
/-! DEFINITION. Operand forms: the bits of a byte in processing order (spec/20_memory.md R52), the desync draw
(spec/42_desync.md R152) and the layouts of response data (spec/30_encoding.md R78). -/

namespace Sys2Proof.Machine

/-- Bit `7 - j` of a byte, its entry `j` in processing order: R31, R52. -/
def entryBit (v : Byte) (j : Nat) : Bit := v.getLsbD (7 - j)

/-- The byte with entry `j` replaced by `b`: R33, R122. -/
def setEntry (v : Byte) (j : Nat) (b : Bit) : Byte :=
  (v &&& ~~~(1#8 <<< (7 - j))) ||| ((BitVec.ofBool b).setWidth 8 <<< (7 - j))

/-- The generator PEEK reads: R73, R113. -/
def State.select (s : State) : GenSel → Generator
  | .gen => s.gen
  | .tx => s.session.tx
  | .rx => s.session.rx

/-- The number of extra `rx` clocks, `n = 3 + desync_rnd`, from the pins sampled with the word: R151, R152. -/
def State.draw (s : State) : Nat := Config.desyncMin + s.pins.desyncRnd.toNat

/-- GSTEP's response data: register, output bit, feedback bit at [31:0], 32, 33: R78, R110. -/
def packTriple (reg : Bits32) (out fb : Bit) : CmdWord :=
  0#14 ++ BitVec.ofBool fb ++ BitVec.ofBool out ++ reg

/-- A pulse record in 9 bits: R34. -/
def PulseRecord.pack (r : PulseRecord) : BitVec 9 :=
  BitVec.ofBool r.matched ++ BitVec.ofBool r.d ++ BitVec.ofBool r.kRx ++ BitVec.ofBool r.e ++ BitVec.ofBool r.kTx ++
    BitVec.ofBool r.p ++ BitVec.ofNat 3 r.index.val

end Sys2Proof.Machine
end

