-- ==== Sys2Proof/Machine/Flags.lean ====
section
/-! DEFINITION. The one-bit conditions of the block (spec/10_state.md R41) and the phase (R32). There are no condition
codes. -/

namespace Sys2Proof.Machine

/-- The session's phase, a function of the cursor: R32. -/
inductive Phase where
  | awaitingInput
  | transmitting
  | byteComplete
  deriving DecidableEq, Repr

/-- R32. -/
def Session.phase (S : Session) : Phase :=
  if S.cursor.val = 0 then .awaitingInput else if S.cursor.val = 8 then .byteComplete else .transmitting

/-- The code on the `phase` port: R45. -/
def Phase.code : Phase → BitVec 2
  | .awaitingInput => 0
  | .transmitting => 1
  | .byteComplete => 2

/-- "Switches locked", cursor ≠ 0: R41. -/
def Session.locked (S : Session) : Bit := S.cursor.val != 0

/-- A record's `matched` bit, `p == d`: R34. -/
def matchedBit (p d : Bit) : Bit := p == d

/-- The 2-bit code of a status: R77. -/
def Status.code : Status → BitVec 2
  | .ok => 0
  | .rejState => 1
  | .rejIllegal => 2

end Sys2Proof.Machine
end

