-- ==== Sys2Proof/Machine/Cipher.lean ====
section
/-! DEFINITION. The session commands other than DESYNC: spec/41_cipher.md R121 to R126. -/

namespace Sys2Proof.Machine

/-- SETIN: R121. -/
def execSetin (d : Byte) (s : State) : Host.Outcome State Fault Refusal :=
  if s.session.locked then reject s .rejState
  else respond (s.setSession { s.session with inp := d }) 0

/-- The pulse record of one SUBMIT: R120, R122. -/
def Session.pulse (o : Orient) (S : Session) : PulseRecord :=
  let p := entryBit S.inp S.cursor.val
  let kTx := outputBit o S.tx.reg
  let e := p ^^ kTx
  let kRx := outputBit o S.rx.reg
  let d := e ^^ kRx
  { index := Fin.ofNat 8 S.cursor.val, p, kTx, e, kRx, d, matched := matchedBit p d }

/-- The session after one SUBMIT: R120, R122. -/
def Session.afterPulse (o : Orient) (S : Session) : Session :=
  let rec' := S.pulse o
  { S with
    tx := S.tx.step o
    rx := S.rx.step o
    accP := setEntry S.accP S.cursor.val rec'.p
    accE := setEntry S.accE S.cursor.val rec'.e
    accD := setEntry S.accD S.cursor.val rec'.d
    pulses := S.pulses ++ [rec']
    cursor := Cursor.next S.cursor }

/-- SUBMIT: R122. -/
def execSubmit (s : State) : Host.Outcome State Fault Refusal :=
  if s.session.cursor.val = 8 then reject s .rejState
  else respond (s.setSession (s.session.afterPulse s.orient)) ((s.session.pulse s.orient).pack.setWidth 48)

/-- The session after COMPLETE: R124. -/
def Session.nextByte (S : Session) : Session :=
  { S with cursor := 0, accP := 0, accE := 0, accD := 0, pulses := [] }

/-- COMPLETE: R124. -/
def execComplete (s : State) : Host.Outcome State Fault Refusal :=
  if s.session.cursor.val ≠ 8 then reject s .rejState
  else respond (s.setSession s.session.nextByte) 0

/-- SRESET: R125. -/
def execSreset (s : State) : Host.Outcome State Fault Refusal :=
  respond (s.setSession (Session.fresh Config.defaultSeed)) 0

/-- SSEED: R126. -/
def execSseed (seed : Bits32) (s : State) : Host.Outcome State Fault Refusal :=
  respond (s.setSession (Session.fresh seed)) 0

end Sys2Proof.Machine
end

