-- ==== Sys2Proof/Machine/Desync.lean ====
section
/-! DEFINITION. DESYNC: spec/42_desync.md R150 to R152. -/

namespace Sys2Proof.Machine

/-- The session after a DESYNC that takes `n` extra `rx` steps: R151. -/
def Session.desynced (o : Orient) (n : Nat) (S : Session) : Session :=
  { S with rx := S.rx.steps o n, sync := false }

/-- DESYNC: R151. -/
def execDesync (s : State) : Host.Outcome State Fault Refusal :=
  if s.session.sync then
    respond (s.setSession (s.session.desynced s.orient s.draw)) (BitVec.ofNat 48 s.draw)
  else reject s .rejState

end Sys2Proof.Machine
end

