-- ==== Sys2Proof/Machine/Generator.lean ====
section
/-! DEFINITION. The commands on the standalone generator and PEEK: spec/40_generator.md R110 to R113. -/

namespace Sys2Proof.Machine

/-- GSTEP: R110. -/
def execGstep (s : State) : Host.Outcome State Fault Refusal :=
  respond (s.setGen (s.gen.step s.orient))
    (packTriple (nextReg s.orient s.gen.reg) (outputBit s.orient s.gen.reg) (feedback s.gen.reg))

/-- GRESET: R111. -/
def execGreset (s : State) : Host.Outcome State Fault Refusal := respond (s.setGen s.gen.restart) 0

/-- GSEED: R112. -/
def execGseed (seed : Bits32) (s : State) : Host.Outcome State Fault Refusal :=
  respond (s.setGen (Generator.construct seed)) 0

/-- `respond(OK, zext_48(PeekBits(sel)))`: R113. -/
def peek (sel : GenSel) (s : State) : Host.Outcome State Fault Refusal :=
  respond s ((s.select sel).peekBits.setWidth 48)

/-- PEEK gen: R113. -/
def execPeekGen (s : State) : Host.Outcome State Fault Refusal := peek .gen s

/-- PEEK tx: R113. -/
def execPeekTx (s : State) : Host.Outcome State Fault Refusal := peek .tx s

/-- PEEK rx: R113. -/
def execPeekRx (s : State) : Host.Outcome State Fault Refusal := peek .rx s

end Sys2Proof.Machine
end

