-- ==== Sys2Proof/Machine/Dispatch.lean ====
section
/-! DEFINITION. The meaning of each command: spec/30_encoding.md R71, R76. -/

namespace Sys2Proof.Machine

/-- Run the command `i` from the state `s`, whose pins were sampled with it. -/
def exec (i : Instr) (s : State) : Host.Outcome State Fault Refusal :=
  match i with
  | .gstep => Sys2Proof.Machine.execGstep s
  | .greset => Sys2Proof.Machine.execGreset s
  | .gseed seed => Sys2Proof.Machine.execGseed seed s
  | .peekGen => Sys2Proof.Machine.execPeekGen s
  | .peekTx => Sys2Proof.Machine.execPeekTx s
  | .peekRx => Sys2Proof.Machine.execPeekRx s
  | .setin d => Sys2Proof.Machine.execSetin d s
  | .submit => Sys2Proof.Machine.execSubmit s
  | .complete => Sys2Proof.Machine.execComplete s
  | .desync => Sys2Proof.Machine.execDesync s
  | .sreset => Sys2Proof.Machine.execSreset s
  | .sseed seed => Sys2Proof.Machine.execSseed seed s

end Sys2Proof.Machine
end

