-- ==== Sys2Proof/Machine/Handshake.lean ====
section
/-! DEFINITION. The command port: how the block takes a command word from its pins (spec/30_encoding.md R81) and how
the reset pin gets in between (spec/70_reset_and_hazards.md R180, R181). -/

namespace Sys2Proof.Machine

/-- The pins of a host that presents the word `w` with the draw input `rnd`: R81. -/
def PortInput.command (w : CmdWord) (rnd : BitVec 3) : PortInput where
  rst := false
  rstInFlight := false
  cmdValid := true
  cmdWord := w
  desyncRnd := rnd

/-- Whether the reset pin takes effect: at the edge itself (R180), or while the command accepted there is in flight,
which abandons it (R181, log 3). -/
def PortInput.resets (x : PortInput) : Bit := x.rst || (x.cmdValid && x.rstInFlight)

/-- `cmd_ready` after an edge: 0 while the reset pin is 1, else 1, since no command is in flight between steps: R81,
R180 (log 4). -/
def State.cmdReady (s : State) : Bit := !s.pins.resets

/-- The pins at the next edge; a host with nothing more to present leaves them idle (log 1). -/
def State.nextPins (s : State) : PortInput := s.inputs.headD PortInput.idle

/-- The block with the pins of the next edge sampled and no response driven yet: R81 (log 15). -/
def State.sample (s : State) : State :=
  { s with pins := s.nextPins, inputs := s.inputs.tail, rsp := none, tick := s.tick + 1 }

/-- What the block does at an edge at which it samples the pins `s.pins`: the reset pin first, then the encoding
check, then the command itself (R76, R163); with no command presented, nothing (R165). `run` is the command's own
effect. -/
def serve (run : Instr → State → Host.Outcome State Fault Refusal) (s : State) : Host.Outcome State Fault Refusal :=
  if s.pins.resets then .next (resetBlock s)
  else if s.pins.cmdValid then
    match decode s.pins.cmdWord with
    | .ok i => run i s
    | .error _ => reject s .rejIllegal
  else .next s

/-- The host presents one more command, before all else it will present: the word of `nbits` bits `w`. The draw input
stays as it is. -/
def State.present (s : State) (nbits w : Nat) : State :=
  { s with inputs := PortInput.command (tableWord nbits w) s.pins.desyncRnd :: s.inputs }

end Sys2Proof.Machine
end

