-- ==== Sys2Proof/Machine/Step.lean ====
section
/-! DEFINITION. One step: one edge at which no command is in flight, with all that the command accepted there does
(spec/20_memory.md R54, log 2). -/

namespace Sys2Proof.Machine

/-- Sample the pins of the next edge and serve them. -/
def step (s : State) : Host.Outcome State Fault Refusal := serve exec s.sample

/-- `s` with the host presenting that command word next (log 1). -/
def State.withFetchWord (s : State) (nbits w : Nat) : State := s.present nbits w

end Sys2Proof.Machine
end

