-- ==== Sys2Proof/Machine/Assembler.lean ====
section
/-! DEFINITION. The assembly syntax and the pseudo-instructions: spec/30_encoding.md R79, R80. It has no effect on the
block; it says which words and draws a line of a test program stands for. Text is a list of characters. Lexical details
the spec leaves open are in log 13. -/

namespace Sys2Proof.Machine

/-- One line of assembly: the commands of R79 and the pseudo-instructions of R80. Immediates are natural numbers here,
so a line can be out of range. -/
inductive AsmLine where
  | gstep
  | greset
  | gseed (imm : Nat)
  | peek (sel : GenSel)
  | setin (imm : Nat)
  | submit
  | complete
  /-- `desync`, or `desync @n` with its recorded draw. -/
  | desync (draw : Option Nat)
  | sreset
  | sseed (imm : Nat)
  | step
  | reset
  | resetTo (imm : Nat)
  | sendbyte (imm : Nat)
  | nextbyte (imm : Nat)
  deriving DecidableEq, Repr

/-- An assembly error: R79. -/
inductive AsmError where
  /-- An immediate, or a recorded draw, outside its range; never truncated. -/
  | outOfRange
  /-- A line of no known form. -/
  | badLine
  /-- A number that is neither decimal, `0x` hexadecimal nor `0b` binary. -/
  | badNumber
  deriving DecidableEq, Repr

/-- An assembled command, with the value of `desync_rnd` that the line records, if any: R79. -/
structure AsmItem where
  instr : Instr
  rnd : Option (BitVec 3)
  deriving DecidableEq, Repr

/-- `<imm32>`, 0 to 2^32 - 1: R79. -/
def imm32 (n : Nat) : Except AsmError Bits32 :=
  if n < 2 ^ 32 then .ok (BitVec.ofNat 32 n) else .error .outOfRange

/-- `<imm8>`, 0 to 255: R79. -/
def imm8 (n : Nat) : Except AsmError Byte :=
  if n < 2 ^ 8 then .ok (BitVec.ofNat 8 n) else .error .outOfRange

/-- `@n` records `desync_rnd` = n - 3, for n from 3 to 10: R79. -/
def recordedDraw (n : Nat) : Except AsmError (BitVec 3) :=
  if Config.desyncMin ≤ n ∧ n ≤ Config.desyncMax then .ok (BitVec.ofNat 3 (n - Config.desyncMin))
  else .error .outOfRange

/-- A command with no recorded draw. -/
def AsmItem.plain (i : Instr) : AsmItem := ⟨i, none⟩

def peekInstr : GenSel → Instr
  | .gen => .peekGen
  | .tx => .peekTx
  | .rx => .peekRx

/-- The commands a line stands for, pseudo-instructions expanded: R79, R80. -/
def AsmLine.expand : AsmLine → Except AsmError (List AsmItem)
  | .gstep => .ok [.plain .gstep]
  | .greset => .ok [.plain .greset]
  | .gseed n => (imm32 n).map fun v => [.plain (.gseed v)]
  | .peek sel => .ok [.plain (peekInstr sel)]
  | .setin n => (imm8 n).map fun v => [.plain (.setin v)]
  | .submit => .ok [.plain .submit]
  | .complete => .ok [.plain .complete]
  | .desync none => .ok [.plain .desync]
  | .desync (some n) => (recordedDraw n).map fun r => [⟨.desync, some r⟩]
  | .sreset => .ok [.plain .sreset]
  | .sseed n => (imm32 n).map fun v => [.plain (.sseed v)]
  | .step => .ok [.plain .gstep]
  | .reset => .ok [.plain .sreset]
  | .resetTo n => (imm32 n).map fun v => [.plain (.sseed v)]
  | .sendbyte n => (imm8 n).map fun v => .plain (.setin v) :: List.replicate Config.unit (.plain .submit)
  | .nextbyte n => (imm8 n).map fun v => [.plain .complete, .plain (.setin v)]

/-- Whether a line's numbers are in range: R79. -/
def AsmLine.wellFormed (l : AsmLine) : Bool := l.expand.isOk

/-- What the host drives for an assembled command, `rnd` where the line records no draw. -/
def AsmItem.toInput (rnd : BitVec 3) (a : AsmItem) : PortInput :=
  PortInput.command (encode a.instr) (a.rnd.getD rnd)

/-- The value of a digit in a base: R79 (both cases of a hexadecimal digit, log 13). -/
def digitValue (base : Nat) (c : Char) : Option Nat :=
  let n := c.toNat
  let v := if 48 ≤ n ∧ n ≤ 57 then n - 48 else if 97 ≤ n ∧ n ≤ 102 then n - 87
    else if 65 ≤ n ∧ n ≤ 70 then n - 55 else base
  if v < base then some v else none

/-- The number that digits, most significant first, stand for, after `acc`. -/
def digitsValue (base : Nat) : Nat → List Char → Option Nat
  | acc, [] => some acc
  | acc, c :: cs =>
    match digitValue base c with
    | some v => digitsValue base (acc * base + v) cs
    | none => none

/-- A number: decimal, `0x` hexadecimal or `0b` binary, with at least one digit: R79. -/
def parseNumber (cs : List Char) : Except AsmError Nat :=
  let digits (base : Nat) (ds : List Char) : Except AsmError Nat :=
    match ds, digitsValue base 0 ds with
    | [], _ => .error .badNumber
    | _, some v => .ok v
    | _, none => .error .badNumber
  match cs with
  | '0' :: 'x' :: ds => digits 16 ds
  | '0' :: 'b' :: ds => digits 2 ds
  | ds => digits 10 ds

/-- The words of a line: `;` starts a comment, spaces and tabs separate (log 13). -/
def tokens (line : List Char) : List (List Char) :=
  ((line.takeWhile (· != ';')).splitOnP (fun c => c == ' ' || c == '\t')).filter (!·.isEmpty)

/-- A line with no operand. -/
def parsePlain (name : List Char) : Except AsmError AsmLine :=
  if name = ['g', 's', 't', 'e', 'p'] then .ok .gstep
  else if name = ['g', 'r', 'e', 's', 'e', 't'] then .ok .greset
  else if name = ['s', 'u', 'b', 'm', 'i', 't'] then .ok .submit
  else if name = ['c', 'o', 'm', 'p', 'l', 'e', 't', 'e'] then .ok .complete
  else if name = ['d', 'e', 's', 'y', 'n', 'c'] then .ok (.desync none)
  else if name = ['s', 'r', 'e', 's', 'e', 't'] then .ok .sreset
  else if name = ['s', 't', 'e', 'p'] then .ok .step
  else if name = ['r', 'e', 's', 'e', 't'] then .ok .reset
  else .error .badLine

/-- PEEK's operand. -/
def parseSel (arg : List Char) : Except AsmError AsmLine :=
  if arg = ['g', 'e', 'n'] then .ok (.peek .gen)
  else if arg = ['t', 'x'] then .ok (.peek .tx)
  else if arg = ['r', 'x'] then .ok (.peek .rx)
  else .error .badLine

/-- The recorded draw of `desync @n`. -/
def parseDraw : List Char → Except AsmError AsmLine
  | '@' :: ds => (parseNumber ds).map fun n => .desync (some n)
  | _ => .error .badLine

/-- A line with one operand. -/
def parseOperand (name arg : List Char) : Except AsmError AsmLine :=
  if name = ['g', 's', 'e', 'e', 'd'] then (parseNumber arg).map .gseed
  else if name = ['p', 'e', 'e', 'k'] then parseSel arg
  else if name = ['s', 'e', 't', 'i', 'n'] then (parseNumber arg).map .setin
  else if name = ['d', 'e', 's', 'y', 'n', 'c'] then parseDraw arg
  else if name = ['s', 's', 'e', 'e', 'd'] then (parseNumber arg).map .sseed
  else if name = ['r', 'e', 's', 'e', 't'] then (parseNumber arg).map .resetTo
  else if name = ['s', 'e', 'n', 'd', 'b', 'y', 't', 'e'] then (parseNumber arg).map .sendbyte
  else if name = ['n', 'e', 'x', 't', 'b', 'y', 't', 'e'] then (parseNumber arg).map .nextbyte
  else .error .badLine

/-- One line of text; `none` where it holds no command: R79. -/
def parseLine (line : List Char) : Except AsmError (Option AsmLine) :=
  match tokens line with
  | [] => .ok none
  | [name] => (parsePlain name).map some
  | [name, arg] => (parseOperand name arg).map some
  | _ => .error .badLine

/-- A program's lines, assembled: R79, R80. -/
def assemble : List (List Char) → Except AsmError (List AsmItem)
  | [] => .ok []
  | l :: ls => do
    let line ← parseLine l
    let items ← match line with
      | none => .ok []
      | some a => a.expand
    let rest ← assemble ls
    return items ++ rest

end Sys2Proof.Machine
end

