-- ==== Sys2Proof/Machine/Ports.lean ====
section
/-! DEFINITION. The output ports: the observation ports (spec/10_state.md R45, R46) and the block's side of the command
port (spec/30_encoding.md R81). They are read off a state between commands and change nothing (R56). The observation
ports are defined only while `cmd_ready` is 1 (R46); while it is 0, which between commands is while the reset pin is 1
(R180), every one of them shows a free value (log 18). -/

namespace Sys2Proof.Machine

/-- The observation ports of one generator, `w` = `STEP_CNT_W`: R45. -/
structure GeneratorPorts (w : Nat) where
  reg : Bits32
  count : BitVec w
  outV : Bit
  out : Bit
  fbV : Bit
  fb : Bit
  histLen : BitVec 7
  hist : BitVec 64
  deriving DecidableEq, Repr

/-- The observation ports of the session: R45. -/
structure SessionPorts where
  cursor : BitVec 4
  phase : BitVec 2
  inp : Byte
  accP : Byte
  accE : Byte
  accD : Byte
  pulses : BitVec 72
  sync : Bit
  deriving DecidableEq, Repr

/-- The output side of the command port: R81. -/
structure ResponsePorts where
  cmdReady : Bit
  rspValid : Bit
  rspStatus : BitVec 2
  rspData : CmdWord
  deriving DecidableEq, Repr

/-- Bit `k` is entry `k` of the history, oldest first, 0 beyond its length: R45. -/
def packHist (h : List Bit) : BitVec 64 := (BitVec.ofBoolListLE h).setWidth 64

/-- Bits [9j+8 : 9j] are record `j`, 0 beyond the last: R45. -/
def packPulses : List PulseRecord → BitVec 72
  | [] => 0
  | r :: rs => r.pack.setWidth 72 ||| (packPulses rs <<< 9)

/-- What the ports of the generator `sel` show while they are defined. The value bits are free while the valid bits are
0: R45, R47 (log 7). -/
def State.definedGeneratorPorts (w : Nat) (s : State) (sel : GenSel) : GeneratorPorts w :=
  let g := s.select sel
  { reg := g.reg
    count := BitVec.ofNat w g.count
    outV := g.lastOut.isSome
    out := g.lastOut.getD (Config.freeOutBit sel s.tick)
    fbV := g.lastFb.isSome
    fb := g.lastFb.getD (Config.freeFbBit sel s.tick)
    histLen := BitVec.ofNat 7 g.hist.length
    hist := packHist g.hist }

/-- What the ports of a generator show while they are not defined, at edge `tick`: any value, R46 (log 18). -/
def freeGeneratorPorts (w : Nat) (sel : GenSel) (tick : Nat) : GeneratorPorts w where
  reg := Config.freePort (.reg sel) 32 tick
  count := Config.freePort (.count sel) w tick
  outV := (Config.freePort (.outV sel) 1 tick).getLsbD 0
  out := (Config.freePort (.out sel) 1 tick).getLsbD 0
  fbV := (Config.freePort (.fbV sel) 1 tick).getLsbD 0
  fb := (Config.freePort (.fb sel) 1 tick).getLsbD 0
  histLen := Config.freePort (.histLen sel) 7 tick
  hist := Config.freePort (.hist sel) 64 tick

/-- The ports of the generator `sel`, `w` = `STEP_CNT_W`: defined only while `cmd_ready` is 1, R45, R46. -/
def State.generatorPorts (w : Nat) (s : State) (sel : GenSel) : GeneratorPorts w :=
  if s.cmdReady then s.definedGeneratorPorts w sel else freeGeneratorPorts w sel s.tick

/-- The ports of this block's generator `sel`, at its own `STEP_CNT_W` (log 6). -/
def State.genPorts (s : State) (sel : GenSel) : GeneratorPorts Config.stepCntW :=
  s.generatorPorts Config.stepCntW sel

/-- What the session's ports show while they are defined: R45 (log 16). -/
def State.definedSessionPorts (s : State) : SessionPorts :=
  let S := s.session
  { cursor := BitVec.ofNat 4 S.cursor.val
    phase := S.phase.code
    inp := S.inp
    accP := S.accP
    accE := S.accE
    accD := S.accD
    pulses := packPulses (S.pulses.take S.cursor.val)
    sync := S.sync }

/-- What the session's ports show while they are not defined, at edge `tick`: any value, R46 (log 18). -/
def freeSessionPorts (tick : Nat) : SessionPorts where
  cursor := Config.freePort .cursor 4 tick
  phase := Config.freePort .phase 2 tick
  inp := Config.freePort .inp 8 tick
  accP := Config.freePort .accP 8 tick
  accE := Config.freePort .accE 8 tick
  accD := Config.freePort .accD 8 tick
  pulses := Config.freePort .pulses 72 tick
  sync := (Config.freePort .sync 1 tick).getLsbD 0

/-- The session's ports: defined only while `cmd_ready` is 1, R45, R46. -/
def State.sessionPorts (s : State) : SessionPorts :=
  if s.cmdReady then s.definedSessionPorts else freeSessionPorts s.tick

/-- The command port's outputs after an edge: not ready while the reset pin is 1 (R180, log 4), a response valid for
one clock (R81). Status and data are free while no response is valid (log 8). -/
def State.responsePorts (s : State) : ResponsePorts where
  cmdReady := s.cmdReady
  rspValid := s.rsp.isSome
  rspStatus := (s.rsp.map (·.status.code)).getD (Config.freeRspStatus s.tick)
  rspData := (s.rsp.map (·.data)).getD (Config.freeRspData s.tick)

end Sys2Proof.Machine
end

