-- ==== Sys2Proof/Safety.lean ====
section
/-! DEFINITION. What holds in every state a run of the block can be in (spec/10_state.md §3, spec/40_generator.md R104,
R115, spec/41_cipher.md R129, spec/42_desync.md R153), and the notions statements are written in. -/

namespace Sys2Proof.Machine

/-- Output of step number `k` (0 is the first) of a generator constructed from `seed`: R116. -/
def outAt (o : Orient) (seed : Bits32) (k : Nat) : Bit := outputBit o (nextRegs o k seed)

/-- A generator constructed from `seed` and stepped `n` times: R115. -/
def Generator.replay (o : Orient) (seed : Bits32) (n : Nat) : Generator := (Generator.construct seed).steps o n

/-- Every field of the generator is what constructing it from its stored seed and stepping it `count` times leaves:
R23, R24, R104, R115. -/
def Generator.Replayed (o : Orient) (g : Generator) : Prop := g = Generator.replay o g.seed g.count

/-- The record `r` of entry `j` agrees with the accumulators, the input buffer and the datapath: R37 (b) and (d),
R120. -/
structure Session.RecordFits (S : Session) (j : Nat) (r : PulseRecord) : Prop where
  index_eq : r.index.val = j
  accP_bit : entryBit S.accP j = r.p
  accE_bit : entryBit S.accE j = r.e
  accD_bit : entryBit S.accD j = r.d
  inp_bit : entryBit S.inp j = r.p
  e_eq : r.e = (r.p ^^ r.kTx)
  d_eq : r.d = (r.e ^^ r.kRx)
  matched_eq : r.matched = (r.p == r.d)

/-- The session's invariant. -/
structure Session.Inv (o : Orient) (S : Session) : Prop where
  tx_replayed : S.tx.Replayed o
  rx_replayed : S.rx.Replayed o
  /-- R125, R126: one seed constructs both. -/
  same_seed : S.rx.seed = S.tx.seed
  /-- R38. -/
  synced_eq : S.sync = true → S.rx = S.tx
  /-- R153. -/
  desynced_ahead : S.sync = false → ∃ n, 3 ≤ n ∧ n ≤ 10 ∧ S.rx.count = S.tx.count + n
  /-- R37 (a). -/
  pulse_count : S.pulses.length = S.cursor.val
  /-- R37 (b), (d). -/
  records_fit : ∀ j r, S.pulses[j]? = some r → S.RecordFits j r
  /-- R37 (c). -/
  rest_clear : ∀ j, S.cursor.val ≤ j → j < 8 →
    entryBit S.accP j = false ∧ entryBit S.accE j = false ∧ entryBit S.accD j = false
  /-- R123: no record made in synchrony mismatches. -/
  synced_records : S.sync = true → ∀ r ∈ S.pulses, r.kRx = r.kTx
  /-- R129: `m` bytes were completed since the session reset. -/
  keystream : ∃ m, S.tx.count = 8 * m + S.cursor.val ∧
    ∀ j r, S.pulses[j]? = some r → r.kTx = outAt o S.tx.seed (8 * m + j)

/-- The block's invariant: the standalone generator and the session. -/
structure State.Inv (s : State) : Prop where
  gen_replayed : s.gen.Replayed s.orient
  session_inv : s.session.Inv s.orient

/-- `rx` is exactly `n` steps ahead of `tx`, and the flag says so: R153. -/
def Session.RxAhead (o : Orient) (n : Nat) (S : Session) : Prop :=
  S.sync = false ∧ S.rx.reg = nextRegs o n S.tx.reg ∧ S.rx.count = S.tx.count + n

/-- The states the block can be in between commands: after the reset pin, whichever orientation it was built with, and
from there by steps, whatever the host presents (R37, R57, log 1). -/
inductive Reachable : State → Prop where
  | reset (o : Orient) : Reachable { State.reset with orient := o }
  | host (s : State) (xs : List PortInput) : Reachable s → Reachable { s with inputs := xs }
  | step (s t : State) : Reachable s → step s = .next t → Reachable t

/-- Commands run one after another, in the order given: R57. -/
def execAll : List Instr → State → Host.Outcome State Fault Refusal
  | [], s => .next s
  | i :: is, s =>
    match exec i s with
    | .next t => execAll is t
    | .fault f => .fault f
    | .refused r => .refused r

/-- The commands that reset the session: R125, R126. -/
def isSessionReset : Instr → Bool
  | .sreset => true
  | .sseed _ => true
  | _ => false

/-- A run is safe when every step answers a next state: R160, R164. -/
def Safe (s : State) : Prop := ∀ k, ∃ t, core.run k s = .next t

end Sys2Proof.Machine
end

