-- ==== Sys2Proof/Certificates/Slice0/Obligations.lean ====
section
/-! DEFINITION. What is to be proved of the model. Each docstring names the rules of spec/ it formalises, or, where it
rests on a choice of the model's own, the log entry of that choice. -/

open Sys2Proof Sys2Proof.Machine

/-! ## Encoding -/

/-- Words written out in spec/95_test_vectors.md L2.4 and spec/30_encoding.md R79 decode to the commands named there,
and words listed there as illegal do not decode. -/
def Obligations.SpecWordsDecode : Prop :=
  decode 0x000000000001#48 = .ok .gstep ∧
  decode 0x000000000002#48 = .ok .greset ∧
  decode 0xB33C87E30003#48 = .ok (.gseed 0xB33C87E3#32) ∧
  decode 0x000000000004#48 = .ok .peekGen ∧
  decode 0x000000000014#48 = .ok .peekTx ∧
  decode 0x000000000024#48 = .ok .peekRx ∧
  decode 0x000000004105#48 = .ok (.setin 0x41#8) ∧
  decode 0x000000000006#48 = .ok .submit ∧
  decode 0x000000000007#48 = .ok .complete ∧
  decode 0x000000000008#48 = .ok .desync ∧
  decode 0x000000000009#48 = .ok .sreset ∧
  decode 0xB33C87E3000A#48 = .ok (.sseed 0xB33C87E3#32) ∧
  ∀ w ∈ [0x000000000000#48, 0x00000000000B#48, 0x00000000000F#48, 0x000000000034#48, 0x000000000046#48,
      0x0000000000C1#48, 0x000000000016#48, 0x000000000106#48, 0x000000010006#48, 0x000000000103#48,
      0x000000000013#48, 0x000000004104#48, 0x000100000014#48, 0x000000004115#48, 0x000100004105#48,
      0x00000000010A#48, 0x000000000029#48, 0x000000000108#48], (decode w).isOk = false

/-- R70, R71, R73, R75: decoding the word of any command gives the command back, operands and all. -/
def Obligations.DecodeOfEncode : Prop := ∀ i : Instr, decode (encode i) = .ok i

/-- R72: "So every legal word has exactly one meaning, and the match/mask pairs of `opcode_table.json` decide it." A
word decodes exactly when a row of the table accepts it, then to a command of that row, whose own word it is; and no
word is accepted by two rows. -/
def Obligations.TableDecidesDecoding : Prop :=
  (∀ w : CmdWord, (∃ i, decode w = .ok i) ↔ legalWord w = true) ∧
  (∀ (w : CmdWord) (i : Instr), decode w = .ok i → i.row.accepts w = true ∧ encode i = w) ∧
  (∀ w : CmdWord, ∀ r ∈ opcodeRows, ∀ r' ∈ opcodeRows, r.accepts w = true → r'.accepts w = true → r = r')

/-- R72, R74: which words are illegal, field by field; and whatever the state, an illegal word that is presented is
answered with `REJ_ILLEGAL` and data 0, and nothing but the command port and the model's own fields (log 1, log 7)
changes, whatever the draw input. -/
def Obligations.IllegalWordsRejected : Prop :=
  (∀ w : CmdWord, (∀ i, decode w ≠ .ok i) ↔
    (w.extractLsb' 0 4 = 0x0#4 ∨ 0xB#4 ≤ w.extractLsb' 0 4 ∨ w.extractLsb' 6 2 ≠ 0#2 ∨
      (w.extractLsb' 0 4 = 0x4#4 ∧ w.extractLsb' 4 2 = 3#2) ∨
      (w.extractLsb' 0 4 ≠ 0x4#4 ∧ w.extractLsb' 4 2 ≠ 0#2) ∨
      (w.extractLsb' 0 4 ≠ 0x5#4 ∧ w.extractLsb' 8 8 ≠ 0#8) ∨
      (w.extractLsb' 0 4 ≠ 0x3#4 ∧ w.extractLsb' 0 4 ≠ 0xA#4 ∧ w.extractLsb' 16 32 ≠ 0#32))) ∧
  (∀ s : State, s.nextPins.resets = false → s.nextPins.cmdValid = true →
    (∀ i, decode s.nextPins.cmdWord ≠ .ok i) →
    step s = .next { s with
      rsp := some ⟨.rejIllegal, 0#48⟩
      pins := s.nextPins, inputs := s.inputs.tail, tick := s.tick + 1 })

/-! ## Steps -/

/-- R76: when the host presents a word that decodes to `i` (and the reset pin does not interfere), a step is `exec i`
at the state with that edge's pins sampled. What sampling does is stated too; that the coming pins stand in a list is the
model's own (log 1), as is the edge counter (log 7). -/
def Obligations.StepRunsDecodedCommand : Prop :=
  ∀ (s : State) (i : Instr), s.nextPins.resets = false → s.nextPins.cmdValid = true →
    decode s.nextPins.cmdWord = .ok i →
    step s = exec i { s with pins := s.nextPins, inputs := s.inputs.tail, rsp := none, tick := s.tick + 1 }

/-- Log 1: the word that `withFetchWord` lays down is the one the very next step runs, with the draw input the pins
hold. -/
def Obligations.StepRunsPresentedWord : Prop :=
  ∀ (s : State) (i : Instr),
    step (s.withFetchWord 48 (encode i).toNat) =
      exec i { s with pins := PortInput.command (encode i) s.pins.desyncRnd, rsp := none, tick := s.tick + 1 }

/-- R163: the reset pin wins over any command; then an illegal word reports `REJ_ILLEGAL` whatever the state; only then
does the command's own condition count, so `REJ_STATE` is only ever the answer to a legal word. -/
def Obligations.RejectionPriority : Prop :=
  (∀ s : State, s.nextPins.rst = true → ∃ t, step s = .next t ∧ t.rsp = none ∧ t.gen = State.reset.gen ∧
    t.session = State.reset.session) ∧
  (∀ s : State, s.nextPins.resets = false → s.nextPins.cmdValid = true → legalWord s.nextPins.cmdWord = false →
    ∃ t, step s = .next t ∧ t.rsp = some ⟨.rejIllegal, 0#48⟩) ∧
  (∀ s : State, s.nextPins.resets = false → s.nextPins.cmdValid = true → legalWord s.nextPins.cmdWord = true →
    ∃ t r, step s = .next t ∧ t.rsp = some r ∧ r.status ≠ .rejIllegal)

/-- R180, R81: at an edge with `rst` = 1 every field of the block takes its reset value, the session the one SRESET
leaves, and neither `cmd_ready` nor `rsp_valid` is 1; at an edge with `rst` = 0 (and no reset in flight) `cmd_ready` is 1
again. That the ports after an edge show `cmd_ready` as that edge's pins leave it, and that it is 1 also after an edge
that took a command, is the model's sampling convention (log 4, log 2). -/
def Obligations.ResetPinResetsBlock : Prop :=
  (∀ s : State, s.nextPins.rst = true → ∃ t, step s = .next t ∧
    t.gen = State.reset.gen ∧ t.session = State.reset.session ∧
    (∃ u, exec .sreset s = .next u ∧ t.session = u.session) ∧
    t.responsePorts.cmdReady = false ∧ t.responsePorts.rspValid = false) ∧
  (∀ s : State, s.nextPins.resets = false → ∃ t, step s = .next t ∧ t.responsePorts.cmdReady = true)

/-- R181: a reset during a command abandons it: no response, and no effect of it survives; and a word presented while
`rst` = 1 is not accepted: the edge is the same without it. The input `rstInFlight`, by which the host resets the block
while a command is in flight, is the model's own (log 3). -/
def Obligations.ResetAbandonsCommand : Prop :=
  (∀ s : State, s.nextPins.cmdValid = true → s.nextPins.rstInFlight = true → ∃ t, step s = .next t ∧
    t.rsp = none ∧ t.gen = State.reset.gen ∧ t.session = State.reset.session) ∧
  (∀ (s : State) (x : PortInput) (xs : List PortInput), x.rst = true →
    ∃ t u, step { s with inputs := x :: xs } = .next t ∧
      step { s with inputs := { x with cmdValid := false } :: xs } = .next u ∧
      t.gen = u.gen ∧ t.session = u.session ∧ t.rsp = none ∧ u.rsp = none)

/-- R47: the value of every field of the block right after reset. The orientation's value is R101's, and that it is a
field is the model's choice (log 5). That `cmd_ready` is 1 rests on the model's choice of the pins last sampled before
the first edge (log 9), by its sampling convention (log 4). The pins themselves, the list of coming inputs and the edge
counter are the model's (log 9, log 1, log 7) and are not stated. -/
def Obligations.ResetStateValues : Prop :=
  State.reset.gen = ⟨0xB38F0F83#32, 0xB38F0F83#32, 0, none, none, []⟩ ∧
  State.reset.session.tx = ⟨0xB38F0F83#32, 0xB38F0F83#32, 0, none, none, []⟩ ∧
  State.reset.session.rx = ⟨0xB38F0F83#32, 0xB38F0F83#32, 0, none, none, []⟩ ∧
  State.reset.session.inp = 0x00#8 ∧ State.reset.session.cursor.val = 0 ∧
  State.reset.session.phase = .awaitingInput ∧
  State.reset.session.accP = 0x00#8 ∧ State.reset.session.accE = 0x00#8 ∧ State.reset.session.accD = 0x00#8 ∧
  State.reset.session.pulses = [] ∧ State.reset.session.sync = true ∧
  State.reset.responsePorts.cmdReady = true ∧ State.reset.responsePorts.rspValid = false ∧
  State.reset.orient = .lsbOut

/-- R165: nothing happens in the block except in response to a command or the reset pin: at an edge with neither, no
field of the block changes, and the last response is no longer valid (R81). -/
def Obligations.IdleEdgeChangesNothing : Prop :=
  ∀ s : State, s.nextPins.rst = false → s.nextPins.cmdValid = false →
    ∃ t, step s = .next t ∧ t.gen = s.gen ∧ t.session = s.session ∧ t.orient = s.orient ∧ t.rsp = none

/-- R160: the block never traps, never halts and has no fault state: from every state every run of every length goes
on, and a command that is not accepted changes nothing but the response. -/
def Obligations.BlockNeverStops : Prop :=
  (∀ s : State, Safe s) ∧
  (∀ (i : Instr) (s : State), ∃ t r, exec i s = .next t ∧ t.rsp = some r ∧
    (r.status ≠ .ok → t = { s with rsp := some ⟨r.status, 0#48⟩ }))

/-- R164: every command ends in exactly one response, after at most 2 generator steps for SUBMIT, at most 10 for
DESYNC, 1 for GSTEP and 0 for the others. A generator's steps are counted on the instances the command has stepped. -/
def Obligations.CommandsTakeBoundedSteps : Prop :=
  ∀ (i : Instr) (s : State), ∃ t r, exec i s = .next t ∧ t.rsp = some r ∧
    ∃ a b c : Nat,
      (t.gen = s.gen.steps s.orient a ∨ a = 0 ∧ (i = .greset ∨ ∃ seed, i = .gseed seed)) ∧
      (t.session.tx = s.session.tx.steps s.orient b ∧ t.session.rx = s.session.rx.steps s.orient c ∨
        b = 0 ∧ c = 0 ∧ isSessionReset i = true) ∧
      a + b + c ≤ match i with | .submit => 2 | .desync => 10 | .gstep => 1 | _ => 0

/-- R161: the state rejections and their causes, no others; a rejected command has status `REJ_STATE`, data 0, and
changes no state. -/
def Obligations.StateRejectionCauses : Prop :=
  ∀ (i : Instr) (s : State), ∃ t r, exec i s = .next t ∧ t.rsp = some r ∧
    (r.status = .rejState ↔
      match i with
      | .setin _ => s.session.cursor.val ≠ 0
      | .submit => s.session.cursor.val = 8
      | .complete => s.session.cursor.val ≠ 8
      | .desync => s.session.sync = false
      | _ => False) ∧
    (r.status = .rejState → t = { s with rsp := some ⟨.rejState, 0#48⟩ })

/-- R77: the statuses have codes 0, 1 and 2; status 3 is never produced, and `REJ_ILLEGAL` is never a command's own
answer. -/
def Obligations.ResponseStatusCodes : Prop :=
  Status.ok.code = 0#2 ∧ Status.rejState.code = 1#2 ∧ Status.rejIllegal.code = 2#2 ∧
  (∀ s t : State, step s = .next t → t.rsp.isSome = true → t.responsePorts.rspStatus ≠ 3#2) ∧
  (∀ (i : Instr) (s t : State) (r : Response), exec i s = .next t → t.rsp = some r → r.status ≠ .rejIllegal)

/-- R78: the response data, bit field by bit field; 0 for every rejected command, illegal words among them. -/
def Obligations.ResponseDataLayout : Prop :=
  (∀ (s t : State) (r : Response), step s = .next t → t.rsp = some r → r.status ≠ .ok → r.data = 0#48) ∧
  ∀ (i : Instr) (s : State), ∃ t r, exec i s = .next t ∧ t.rsp = some r ∧
    (r.status ≠ .ok → r.data = 0#48) ∧
    (r.status = .ok →
      match i with
      | .gstep => r.data.extractLsb' 0 32 = t.gen.reg ∧ some (r.data.getLsbD 32) = t.gen.lastOut ∧
          some (r.data.getLsbD 33) = t.gen.lastFb ∧ r.data.extractLsb' 34 14 = 0#14
      | .peekGen => r.data.extractLsb' 0 32 = s.gen.reg ∧ r.data.extractLsb' 32 16 = 0#16
      | .peekTx => r.data.extractLsb' 0 32 = s.session.tx.reg ∧ r.data.extractLsb' 32 16 = 0#16
      | .peekRx => r.data.extractLsb' 0 32 = s.session.rx.reg ∧ r.data.extractLsb' 32 16 = 0#16
      | .submit => (∃ p, t.session.pulses = s.session.pulses ++ [p] ∧ r.data.extractLsb' 0 9 = p.pack) ∧
          r.data.extractLsb' 9 39 = 0#39
      | .desync => t.session.rx.count = s.session.rx.count + (r.data.extractLsb' 0 4).toNat ∧
          3 ≤ (r.data.extractLsb' 0 4).toNat ∧ (r.data.extractLsb' 0 4).toNat ≤ 10 ∧
          r.data.extractLsb' 4 44 = 0#44
      | _ => r.data = 0#48)

/-- R81: an edge at which a command is taken ends with its response on the ports, and the response is gone at the next
edge at which nothing is presented (it is valid for one clock). That the state after a step shows these ports is the
model's sampling convention (log 4, log 15); what the other ports show while `rsp_valid` is 0 is free (log 8). -/
def Obligations.ResponseValidForOneClock : Prop :=
  (∀ s : State, s.nextPins.resets = false → s.nextPins.cmdValid = true → ∃ t r, step s = .next t ∧ t.rsp = some r ∧
    t.responsePorts = { cmdReady := true, rspValid := true, rspStatus := r.status.code, rspData := r.data }) ∧
  (∀ s : State, s.nextPins.cmdValid = false → ∃ t, step s = .next t ∧ t.responsePorts.rspValid = false)

/-! ## The generator -/

/-- R100, R102: the pure step, in both orientations: the feedback bit is the XOR of the tap bits, the output bit is the
bit expelled, and the register shifts one place without sign, the feedback bit at the vacated end. -/
def Obligations.LfsrStepShiftsFeedbackIn : Prop :=
  ∀ r : Bits32,
    feedback r = (r.getLsbD 1 ^^ r.getLsbD 5 ^^ r.getLsbD 6 ^^ r.getLsbD 31) ∧
    outputBit .lsbOut r = r.getLsbD 0 ∧
    nextReg .lsbOut r = (r >>> 1) ||| ((BitVec.ofBool (feedback r)).setWidth 32 <<< 31) ∧
    outputBit .msbOut r = r.getLsbD 31 ∧
    nextReg .msbOut r = (r <<< 1) ||| (BitVec.ofBool (feedback r)).setWidth 32

/-- R114: the zero register is a fixed point of the step, with output 0 and feedback 0, every time. -/
def Obligations.ZeroRegisterStaysZero : Prop :=
  ∀ (o : Orient) (g : Generator) (n : Nat), g.reg = 0#32 →
    (g.steps o (n + 1)).reg = 0#32 ∧ (g.steps o (n + 1)).lastOut = some false ∧
    (g.steps o (n + 1)).lastFb = some false

/-- R116: the first 32 outputs after a construct are the seed's own bits read from the output end; the first feedback
bit is the 33rd output. -/
def Obligations.FirstOutputsAreSeedBits : Prop :=
  ∀ (o : Orient) (seed : Bits32),
    (∀ k < 32, outAt o seed k = match o with
      | .lsbOut => seed.getLsbD k
      | .msbOut => seed.getLsbD (31 - k)) ∧
    outAt o seed 32 = feedback seed

/-- R117 (first part): under `LSB_OUT` a step ignores bit 0 except as the output: two registers have the same successor
exactly when they agree in bits 31 to 1, so the step is not a bijection; and a register whose bits 31 to 1 are 0 reaches
0 after at most one step and stays there. -/
def Obligations.LsbStepForgetsBitZero : Prop :=
  (∀ r r' : Bits32, nextReg .lsbOut r = nextReg .lsbOut r' ↔ r.extractLsb' 1 31 = r'.extractLsb' 1 31) ∧
  ¬ Function.Injective (nextReg .lsbOut) ∧
  (∀ r : Bits32, r.extractLsb' 1 31 = 0#31 → ∀ n, nextRegs .lsbOut (n + 1) r = 0#32)

/-- R118 (first sentence): under `MSB_OUT` the step is a bijection. -/
def Obligations.MsbStepIsBijective : Prop := Function.Bijective (nextReg .msbOut)

/-- R117, R118 (the recurrences): under `LSB_OUT` a[n] = a[n-1] ^ a[n-26] ^ a[n-27] ^ a[n-31], under `MSB_OUT`
b[n] = b[n-2] ^ b[n-6] ^ b[n-7] ^ b[n-32], from n = 32 on, for every seed. -/
def Obligations.KeystreamRecurrences : Prop :=
  ∀ (seed : Bits32) (k : Nat),
    outAt .lsbOut seed (k + 32) =
      (outAt .lsbOut seed (k + 31) ^^ outAt .lsbOut seed (k + 6) ^^ outAt .lsbOut seed (k + 5) ^^
        outAt .lsbOut seed (k + 1)) ∧
    outAt .msbOut seed (k + 32) =
      (outAt .msbOut seed (k + 30) ^^ outAt .msbOut seed (k + 26) ^^ outAt .msbOut seed (k + 25) ^^
        outAt .msbOut seed k)

/-- R104: a history holds the last min(count, 64) output bits in step order, oldest first, and never more than 64; the
append evicts the oldest when full. -/
def Obligations.HistoryHoldsLastOutputs : Prop :=
  (∀ (h : List Bit) (b : Bit), h.length < 64 → pushHist h b = h ++ [b]) ∧
  (∀ (h : List Bit) (b : Bit), h.length = 64 → pushHist h b = h.tail ++ [b]) ∧
  (∀ (o : Orient) (seed : Bits32) (n : Nat),
    (Generator.replay o seed n).hist = ((List.range n).map (outAt o seed)).drop (n - 64) ∧
    (Generator.replay o seed n).hist.length = min (Generator.replay o seed n).count 64)

/-! ## Commands on the standalone generator -/

/-- R103: what one step of any generator instance writes, its seed left alone. GSTEP completes from every state (R110):
it steps `gen` once; nothing of `tx`, `rx`, the session, the parameters or the pins changes; the response is the
triple. -/
def Obligations.GstepStepsGen : Prop :=
  (∀ (o : Orient) (g : Generator), g.step o = {
    reg := nextReg o g.reg
    seed := g.seed
    count := g.count + 1
    lastOut := some (outputBit o g.reg)
    lastFb := some (feedback g.reg)
    hist := pushHist g.hist (outputBit o g.reg) }) ∧
  ∀ s : State, exec .gstep s = .next { s with
    gen := {
      reg := nextReg s.orient s.gen.reg
      seed := s.gen.seed
      count := s.gen.count + 1
      lastOut := some (outputBit s.orient s.gen.reg)
      lastFb := some (feedback s.gen.reg)
      hist := pushHist s.gen.hist (outputBit s.orient s.gen.reg) }
    rsp := some ⟨.ok, 0#14 ++ BitVec.ofBool (feedback s.gen.reg) ++ BitVec.ofBool (outputBit s.orient s.gen.reg) ++
      nextReg s.orient s.gen.reg⟩ }

/-- R106: a reset without a seed constructs any generator instance from its stored seed. GRESET completes from every state: `gen` is as constructed from its stored seed, nothing else changes; and
GRESET right after GRESET changes nothing (R111). -/
def Obligations.GresetRestoresStoredSeed : Prop :=
  (∀ g : Generator, g.restart =
    { reg := g.seed, seed := g.seed, count := 0, lastOut := none, lastFb := none, hist := [] }) ∧
  (∀ s : State, exec .greset s = .next { s with
    gen := { reg := s.gen.seed, seed := s.gen.seed, count := 0, lastOut := none, lastFb := none, hist := [] }
    rsp := some ⟨.ok, 0#48⟩ }) ∧
  (∀ s t : State, exec .greset s = .next t → exec .greset t = .next t)

/-- R105, R107: construction, which is also the reset with a seed, from any seed, zero included. GSEED completes from
every state and for every seed: register and stored seed become it,
so a later GRESET returns to it; nothing else changes. -/
def Obligations.GseedReplacesSeed : Prop :=
  (∀ seed : Bits32, Generator.construct seed =
    { reg := seed, seed := seed, count := 0, lastOut := none, lastFb := none, hist := [] }) ∧
  (∀ (seed : Bits32) (s : State), exec (.gseed seed) s = .next { s with
    gen := { reg := seed, seed := seed, count := 0, lastOut := none, lastFb := none, hist := [] }
    rsp := some ⟨.ok, 0#48⟩ }) ∧
  (∀ (seed : Bits32) (s t u v : State), exec (.gseed seed) s = .next t → exec .gstep t = .next u →
    exec .greset u = .next v → v.gen = t.gen)

/-- R108: PEEK of each of the three generators completes from every state, answers its register zero-extended, and
changes nothing but the response; the value is that of the `<g>_reg` port while the ports are defined (`cmd_ready` = 1,
R46). -/
def Obligations.PeekReadsRegister : Prop :=
  ∀ s : State,
    exec .peekGen s = .next { s with rsp := some ⟨.ok, 0#16 ++ s.gen.reg⟩ } ∧
    exec .peekTx s = .next { s with rsp := some ⟨.ok, 0#16 ++ s.session.tx.reg⟩ } ∧
    exec .peekRx s = .next { s with rsp := some ⟨.ok, 0#16 ++ s.session.rx.reg⟩ } ∧
    (s.responsePorts.cmdReady = true → (s.genPorts .gen).reg = s.gen.reg ∧ (s.genPorts .tx).reg = s.session.tx.reg ∧
      (s.genPorts .rx).reg = s.session.rx.reg)

/-! ## Session commands -/

/-- R121: SETIN completes when the cursor is 0 and replaces the buffer, nothing else; otherwise it is rejected and
nothing changes. -/
def Obligations.SetinLoadsBufferAtCursorZero : Prop :=
  ∀ (d : Byte) (s : State),
    (s.session.cursor.val = 0 → exec (.setin d) s = .next { s with
      session := { s.session with inp := d }, rsp := some ⟨.ok, 0#48⟩ }) ∧
    (s.session.cursor.val ≠ 0 → exec (.setin d) s = .next { s with rsp := some ⟨.rejState, 0#48⟩ })

/-- R122: SUBMIT completes whenever the cursor `j` is below 8: it takes plaintext bit `7 - j`, steps `tx` and `rx` once
each, XORs in turn, writes bit `7 - j` of each accumulator and no other bit of them, appends the record and advances the
cursor; the buffer, the flag, `gen`, the parameters and the pins do not change. At cursor 8 it is rejected, and neither
generator is clocked. -/
def Obligations.SubmitProcessesOneBit : Prop :=
  ∀ s : State,
    (s.session.cursor.val = 8 → exec .submit s = .next { s with rsp := some ⟨.rejState, 0#48⟩ }) ∧
    (s.session.cursor.val < 8 → ∃ (t : State) (r : PulseRecord),
      exec .submit s = .next t ∧
      r.index.val = s.session.cursor.val ∧
      r.p = s.session.inp.getLsbD (7 - s.session.cursor.val) ∧
      r.kTx = outputBit s.orient s.session.tx.reg ∧
      r.e = (r.p ^^ r.kTx) ∧
      r.kRx = outputBit s.orient s.session.rx.reg ∧
      r.d = (r.e ^^ r.kRx) ∧
      r.matched = (r.p == r.d) ∧
      t.session.tx = s.session.tx.step s.orient ∧
      t.session.rx = s.session.rx.step s.orient ∧
      (∀ b < 8, t.session.accP.getLsbD b =
        if b = 7 - s.session.cursor.val then r.p else s.session.accP.getLsbD b) ∧
      (∀ b < 8, t.session.accE.getLsbD b =
        if b = 7 - s.session.cursor.val then r.e else s.session.accE.getLsbD b) ∧
      (∀ b < 8, t.session.accD.getLsbD b =
        if b = 7 - s.session.cursor.val then r.d else s.session.accD.getLsbD b) ∧
      t.session.pulses = s.session.pulses ++ [r] ∧
      t.session.cursor.val = s.session.cursor.val + 1 ∧
      t.session.inp = s.session.inp ∧ t.session.sync = s.session.sync ∧ t.gen = s.gen ∧
      t.orient = s.orient ∧ t.pins = s.pins ∧ t.inputs = s.inputs ∧ t.tick = s.tick ∧
      t.rsp = some ⟨.ok, 0#39 ++ r.pack⟩)

/-- R34: a record packed in 9 bits: index at [2:0], then p, k_tx, e, k_rx, d, matched. -/
def Obligations.RecordPacking : Prop :=
  ∀ r : PulseRecord,
    (r.pack.extractLsb' 0 3).toNat = r.index.val ∧ r.pack.getLsbD 3 = r.p ∧ r.pack.getLsbD 4 = r.kTx ∧
    r.pack.getLsbD 5 = r.e ∧ r.pack.getLsbD 6 = r.kRx ∧ r.pack.getLsbD 7 = r.d ∧ r.pack.getLsbD 8 = r.matched

/-- R124: COMPLETE completes exactly at cursor 8: cursor, accumulators and pulse history are cleared; `tx`, `rx`, the
buffer, the flag and all else are preserved; elsewhere it is rejected and nothing changes. -/
def Obligations.CompleteClearsByteOnly : Prop :=
  ∀ s : State,
    (s.session.cursor.val = 8 → exec .complete s = .next { s with
      session := { s.session with cursor := 0, accP := 0x00#8, accE := 0x00#8, accD := 0x00#8, pulses := [] }
      rsp := some ⟨.ok, 0#48⟩ }) ∧
    (s.session.cursor.val ≠ 8 → exec .complete s = .next { s with rsp := some ⟨.rejState, 0#48⟩ })

/-- R125, R126: SRESET and SSEED complete from every state and write every field of the session, `tx` and `rx`
constructed from `DEFAULT_SEED` or from the operand; `gen` and all else are unchanged; `sseed 0xB38F0F83` leaves the
same state as SRESET. -/
def Obligations.SessionResetsRewriteSession : Prop :=
  (∀ (seed : Bits32) (s : State), exec (.sseed seed) s = .next { s with
    session := {
      tx := { reg := seed, seed := seed, count := 0, lastOut := none, lastFb := none, hist := [] }
      rx := { reg := seed, seed := seed, count := 0, lastOut := none, lastFb := none, hist := [] }
      inp := 0x00#8, cursor := 0, accP := 0x00#8, accE := 0x00#8, accD := 0x00#8, pulses := [], sync := true }
    rsp := some ⟨.ok, 0#48⟩ }) ∧
  (∀ s : State, exec .sreset s = .next { s with
    session := {
      tx := { reg := 0xB38F0F83#32, seed := 0xB38F0F83#32, count := 0, lastOut := none, lastFb := none, hist := [] }
      rx := { reg := 0xB38F0F83#32, seed := 0xB38F0F83#32, count := 0, lastOut := none, lastFb := none, hist := [] }
      inp := 0x00#8, cursor := 0, accP := 0x00#8, accE := 0x00#8, accD := 0x00#8, pulses := [], sync := true }
    rsp := some ⟨.ok, 0#48⟩ }) ∧
  (∀ s : State, exec (.sseed 0xB38F0F83#32) s = exec .sreset s)

/-- R151: DESYNC completes whenever the flag is 1, whatever the phase: `rx` alone is stepped n = 3 + `desync_rnd`
times (register, counter, last bits and history; its seed stays), the flag becomes 0, the response is n, and nothing else
changes; with the flag 0 it is rejected and nothing changes, whatever the draw. -/
def Obligations.DesyncStepsRxAlone : Prop :=
  ∀ s : State,
    (s.session.sync = true → ∃ t, exec .desync s = .next t ∧
      t.session.rx = s.session.rx.steps s.orient (3 + s.pins.desyncRnd.toNat) ∧
      t.session.rx.reg = nextRegs s.orient (3 + s.pins.desyncRnd.toNat) s.session.rx.reg ∧
      t.session.rx.count = s.session.rx.count + (3 + s.pins.desyncRnd.toNat) ∧
      t.session.rx.seed = s.session.rx.seed ∧
      t = { s with
        session := { s.session with rx := t.session.rx, sync := false }
        rsp := some ⟨.ok, BitVec.ofNat 48 (3 + s.pins.desyncRnd.toNat)⟩ }) ∧
    (s.session.sync = false → exec .desync s = .next { s with rsp := some ⟨.rejState, 0#48⟩ })

/-- R152: every value of `desync_rnd` gives a draw from 3 to 10, and every draw from 3 to 10 has exactly one value. -/
def Obligations.DrawsAreThreeToTen : Prop :=
  (∀ s : State, 3 ≤ s.draw ∧ s.draw ≤ 10) ∧
  (∀ (s : State) (n : Nat), 3 ≤ n → n ≤ 10 →
    ∃! r : BitVec 3, { s with pins := { s.pins with desyncRnd := r } }.draw = n)

/-! ## The phase, the flag and what commands leave alone -/

/-- R127: the phase changes only as the table says, and the table's rejections are the rejections. -/
def Obligations.PhaseTransitions : Prop :=
  ∀ (i : Instr) (s : State), ∃ t r, exec i s = .next t ∧ t.rsp = some r ∧
    t.session.phase = (match s.session.phase, i with
      | _, .sreset => .awaitingInput
      | _, .sseed _ => .awaitingInput
      | .awaitingInput, .submit => .transmitting
      | .transmitting, .submit => if s.session.cursor.val = 7 then .byteComplete else .transmitting
      | .byteComplete, .complete => .awaitingInput
      | p, _ => p) ∧
    (r.status = .rejState ↔ match s.session.phase, i with
      | .awaitingInput, .complete => True
      | .transmitting, .setin _ => True
      | .transmitting, .complete => True
      | .byteComplete, .setin _ => True
      | .byteComplete, .submit => True
      | _, .desync => s.session.sync = false
      | _, _ => False)

/-- R150: the flag is 1 after the reset pin; DESYNC accepted moves it from 1 to 0 and DESYNC at 0 is rejected, changing
nothing; SRESET and SSEED set it; no other command changes it. -/
def Obligations.SyncFlagMachine : Prop :=
  (∀ s : State, s.nextPins.rst = true → ∃ t, step s = .next t ∧ t.session.sync = true) ∧
  (∀ (i : Instr) (s : State), ∃ t, exec i s = .next t ∧ t.session.sync = match i with
    | .desync => false
    | .sreset => true
    | .sseed _ => true
    | _ => s.session.sync) ∧
  (∀ s : State, s.session.sync = false → exec .desync s = .next { s with rsp := some ⟨.rejState, 0#48⟩ })

/-- R155: after DESYNC the flag stays 0 through any run of commands without a session reset, and COMPLETE leaves `tx`
and `rx` as they are. -/
def Obligations.DesyncLastsUntilSessionReset : Prop :=
  (∀ (is : List Instr) (s : State), (∀ i ∈ is, isSessionReset i = false) → s.session.sync = false →
    ∃ t, execAll is s = .next t ∧ t.session.sync = false) ∧
  (∀ s t : State, exec .complete s = .next t → t.session.tx = s.session.tx ∧ t.session.rx = s.session.rx)

/-- R182, R190: the generator commands touch only `gen` and the session commands never touch `gen`; neither depends on
what the other holds. -/
def Obligations.GenAndSessionIndependent : Prop :=
  (∀ (i : Instr) (s : State), ∃ t, exec i s = .next t ∧
    match i with
    | .gstep => t.session = s.session
    | .greset => t.session = s.session
    | .gseed _ => t.session = s.session
    | .peekGen => t.session = s.session ∧ t.gen = s.gen
    | .peekTx => t.session = s.session ∧ t.gen = s.gen
    | .peekRx => t.session = s.session ∧ t.gen = s.gen
    | _ => t.gen = s.gen) ∧
  (∀ (i : Instr) (s : State) (g : Generator), ∃ t u, exec i s = .next t ∧ exec i (s.setGen g) = .next u ∧
    u.session = t.session) ∧
  (∀ (i : Instr) (s : State) (S : Session), ∃ t u, exec i s = .next t ∧ exec i (s.setSession S) = .next u ∧
    u.gen = t.gen)

/-- R42: no command writes the configuration; and no command changes the sampled pins, or the model's own fields (log 1,
log 7). -/
def Obligations.CommandsKeepConfiguration : Prop :=
  (∀ (i : Instr) (s : State), ∃ t, exec i s = .next t ∧ t.orient = s.orient ∧ t.pins = s.pins ∧
    t.inputs = s.inputs ∧ t.tick = s.tick) ∧
  (∀ s : State, ∃ t, step s = .next t ∧ t.orient = s.orient)

/-! ## Invariants -/

/-- The model's invariant (its parts rest on R37, R38, R104, R115, R123, R129 and R153) holds after the reset pin, in
both orientations. -/
def Obligations.ResetMeetsInvariant : Prop := ∀ o : Orient, State.Inv { State.reset with orient := o }

/-- Every step keeps the model's invariant, from every state that meets it and whatever the host presents. -/
def Obligations.StepKeepsInvariant : Prop := ∀ s t : State, s.Inv → step s = .next t → t.Inv

/-- R37: in every state reachable from reset the pulse history, the accumulators, the cursor and the input buffer fit
together. -/
def Obligations.ReachableBytesArePositional : Prop :=
  ∀ s : State, Reachable s →
    s.session.pulses.length = s.session.cursor.val ∧
    (∀ j r, s.session.pulses[j]? = some r →
      r.index.val = j ∧ s.session.accP.getLsbD (7 - j) = r.p ∧ s.session.accE.getLsbD (7 - j) = r.e ∧
      s.session.accD.getLsbD (7 - j) = r.d ∧ s.session.inp.getLsbD (7 - j) = r.p) ∧
    (∀ j, s.session.cursor.val ≤ j → j ≤ 7 → s.session.accP.getLsbD (7 - j) = false ∧
      s.session.accE.getLsbD (7 - j) = false ∧ s.session.accD.getLsbD (7 - j) = false)

/-- R38: in every reachable state with the flag 1, `tx` and `rx` are equal in every field. -/
def Obligations.ReachableSyncedGeneratorsEqual : Prop :=
  ∀ s : State, Reachable s → s.session.sync = true → s.session.tx = s.session.rx

/-- R115, R23, R24, R104: in every reachable state each generator is what stepping `count` times a generator
constructed from its stored seed leaves, in every field. -/
def Obligations.ReachableGeneratorsReplaySeed : Prop :=
  ∀ (s : State) (sel : GenSel), Reachable s →
    s.select sel = Generator.replay s.orient (s.select sel).seed (s.select sel).count

/-- R123: a SUBMIT with the flag 1 recovers its plaintext bit, in every reachable state; a byte complete with the flag 1
has decrypted to the plaintext byte; and in every state, synchronized or not, d = p ^ k_tx ^ k_rx, matched exactly when
the keystream bits are equal. -/
def Obligations.SynchronyRecoversPlaintext : Prop :=
  (∀ s : State, Reachable s → s.session.sync = true → s.session.cursor.val < 8 →
    ∃ t r, exec .submit s = .next t ∧ t.session.pulses = s.session.pulses ++ [r] ∧ r.kRx = r.kTx ∧ r.d = r.p ∧
      r.matched = true) ∧
  (∀ s : State, Reachable s → s.session.sync = true → s.session.cursor.val = 8 →
    s.session.accD = s.session.accP ∧ s.session.accP = s.session.inp) ∧
  (∀ s : State, s.session.cursor.val < 8 →
    ∃ t r, exec .submit s = .next t ∧ t.session.pulses = s.session.pulses ++ [r] ∧
      r.d = (r.p ^^ r.kTx ^^ r.kRx) ∧ (r.matched = true ↔ r.kTx = r.kRx))

/-- R129: in every reachable state with a full byte, the byte is the m-th since the session reset (m = count / 8) and
its keystream bits are the outputs of steps 8(m-1) to 8m - 1 of a generator constructed from the session's seed:
COMPLETE does not restart the keystream. -/
def Obligations.BytesContinueKeystream : Prop :=
  ∀ s : State, Reachable s → s.session.cursor.val = 8 →
    ∃ m, 1 ≤ m ∧ s.session.tx.count = 8 * m ∧
      s.session.pulses.map (·.kTx) =
        (List.range 8).map (fun j => outAt s.orient s.session.tx.seed (8 * (m - 1) + j))

/-- R131: a full byte's ciphertext is the plaintext XOR the byte of `tx` keystream bits, its decryption the ciphertext
XOR the byte of `rx` keystream bits, which are one and the same byte while the flag is 1. -/
def Obligations.CiphertextIsXorOfKeystream : Prop :=
  ∀ (s : State) (kTx kRx : Byte), Reachable s → s.session.cursor.val = 8 →
    (∀ j < 8, ∃ r, s.session.pulses[j]? = some r ∧ kTx.getLsbD (7 - j) = r.kTx ∧ kRx.getLsbD (7 - j) = r.kRx) →
    s.session.accE = s.session.accP ^^^ kTx ∧ s.session.accD = s.session.accE ^^^ kRx ∧
      (s.session.sync = true → kTx = kRx)

/-- R153: an accepted DESYNC with draw n, in every reachable state, puts `rx` exactly n steps ahead of `tx`; every
command but a session reset keeps it exactly n ahead; and then the registers are equal exactly when `tx`'s is 0, in
both orientations. -/
def Obligations.RxStaysExactlyAhead : Prop :=
  (∀ s : State, Reachable s → s.session.sync = true →
    ∃ t, exec .desync s = .next t ∧ t.session.RxAhead t.orient s.draw) ∧
  (∀ (n : Nat) (i : Instr) (s : State), isSessionReset i = false → s.session.RxAhead s.orient n →
    ∃ t, exec i s = .next t ∧ t.session.RxAhead t.orient n) ∧
  (∀ (n : Nat) (o : Orient) (S : Session), 3 ≤ n → n ≤ 10 → S.RxAhead o n →
    (S.tx.reg = S.rx.reg ↔ S.tx.reg = 0#32))

/-! ## Ports and assembly -/

/-- R45, R46: while `cmd_ready` is 1 (the only time they are defined) the observation ports show the state they stand for; a history or a record beyond the current length or cursor
shows 0; a value bit is stated only while its valid bit is 1. -/
def Obligations.ObservationPortsShowState : Prop :=
  ∀ (w : Nat) (s : State), s.responsePorts.cmdReady = true →
    (∀ sel : GenSel,
      (s.generatorPorts w sel).reg = (s.select sel).reg ∧
      (s.generatorPorts w sel).count.toNat = (s.select sel).count % 2 ^ w ∧
      (s.generatorPorts w sel).outV = (s.select sel).lastOut.isSome ∧
      (∀ b, (s.select sel).lastOut = some b → (s.generatorPorts w sel).out = b) ∧
      (s.generatorPorts w sel).fbV = (s.select sel).lastFb.isSome ∧
      (∀ b, (s.select sel).lastFb = some b → (s.generatorPorts w sel).fb = b) ∧
      ((s.select sel).hist.length ≤ 64 →
        (s.generatorPorts w sel).histLen.toNat = (s.select sel).hist.length ∧
        ∀ k < 64, (s.generatorPorts w sel).hist.getLsbD k = (s.select sel).hist.getD k false)) ∧
    s.sessionPorts.cursor.toNat = s.session.cursor.val ∧
    s.sessionPorts.phase = (match s.session.phase with
      | .awaitingInput => 0#2
      | .transmitting => 1#2
      | .byteComplete => 2#2) ∧
    s.sessionPorts.phase ≠ 3#2 ∧
    s.sessionPorts.inp = s.session.inp ∧ s.sessionPorts.accP = s.session.accP ∧
    s.sessionPorts.accE = s.session.accE ∧ s.sessionPorts.accD = s.session.accD ∧
    s.sessionPorts.sync = s.session.sync ∧
    (∀ j r, j < s.session.cursor.val → s.session.pulses[j]? = some r →
      s.sessionPorts.pulses.extractLsb' (9 * j) 9 = r.pack) ∧
    (∀ j, s.session.cursor.val ≤ j → j < 8 → s.sessionPorts.pulses.extractLsb' (9 * j) 9 = 0#9)

/-- R80: the pseudo-instructions and their expansions, over all operands in range; R79: an out-of-range immediate is an
assembly error, and `desync @n` records the draw n. -/
def Obligations.AssemblerExpansions : Prop :=
  AsmLine.step.expand = .ok [.plain .gstep] ∧
  AsmLine.reset.expand = .ok [.plain .sreset] ∧
  (∀ v : Bits32, (AsmLine.resetTo v.toNat).expand = .ok [.plain (.sseed v)]) ∧
  (∀ v : Byte, (AsmLine.sendbyte v.toNat).expand = .ok [.plain (.setin v), .plain .submit, .plain .submit,
    .plain .submit, .plain .submit, .plain .submit, .plain .submit, .plain .submit, .plain .submit]) ∧
  (∀ v : Byte, (AsmLine.nextbyte v.toNat).expand = .ok [.plain .complete, .plain (.setin v)]) ∧
  (∀ n, 2 ^ 32 ≤ n → (AsmLine.gseed n).expand = .error .outOfRange ∧
    (AsmLine.sseed n).expand = .error .outOfRange ∧ (AsmLine.resetTo n).expand = .error .outOfRange) ∧
  (∀ n, 2 ^ 8 ≤ n → (AsmLine.setin n).expand = .error .outOfRange ∧
    (AsmLine.sendbyte n).expand = .error .outOfRange ∧ (AsmLine.nextbyte n).expand = .error .outOfRange) ∧
  (∀ n, 3 ≤ n → n ≤ 10 → ∃ r : BitVec 3, (AsmLine.desync (some n)).expand = .ok [⟨.desync, some r⟩] ∧
    n = 3 + r.toNat) ∧
  (∀ n, n < 3 ∨ 10 < n → (AsmLine.desync (some n)).expand = .error .outOfRange)
end

