-- ==== Sys2Proof/Laws/Decode.lean ====
section
/-! SUPPORT. A command word and its fields. -/

namespace Sys2Proof

theorem Field.ext {w w' : CmdWord} (hop : Field.op w = Field.op w') (hg : Field.g w = Field.g w')
    (hrsv : Field.rsv w = Field.rsv w') (hd : Field.d w = Field.d w') (hseed : Field.seed w = Field.seed w') :
    w = w' := by
  apply BitVec.eq_of_getLsbD_eq
  intro i hi
  have bit {n : Nat} {a b : BitVec n} (h : a = b) (k : Nat) : a.getLsbD k = b.getLsbD k := by rw [h]
  have h1 := bit hop i
  have h2 := bit hg (i - 4)
  have h3 := bit hrsv (i - 6)
  have h4 := bit hd (i - 8)
  have h5 := bit hseed (i - 16)
  simp only [Field.op, Field.g, Field.rsv, Field.d, Field.seed, BitVec.getLsbD_extractLsb'] at h1 h2 h3 h4 h5
  by_cases c1 : i < 4
  · simpa [c1] using h1
  by_cases c2 : i < 6
  · simpa [show i - 4 < 2 by omega, show 4 + (i - 4) = i by omega] using h2
  by_cases c3 : i < 8
  · simpa [show i - 6 < 2 by omega, show 6 + (i - 6) = i by omega] using h3
  by_cases c4 : i < 16
  · simpa [show i - 8 < 8 by omega, show 8 + (i - 8) = i by omega] using h4
  · simpa [show i - 16 < 32 by omega, show 16 + (i - 16) = i by omega] using h5

section Assemble
variable (op : BitVec 4) (g : BitVec 2) (d : Byte) (seed : Bits32)

theorem Field.assemble_bit (i : Nat) :
    (Field.assemble op g d seed).getLsbD i =
      if i < 4 then op.getLsbD i else if i < 6 then g.getLsbD (i - 4) else if i < 8 then false
      else if i < 16 then d.getLsbD (i - 8) else seed.getLsbD (i - 16) := by
  change BitVec.getLsbD (w := 32 + 8 + 2 + 2 + 4) (seed ++ d ++ 0#2 ++ g ++ op) i = _
  simp only [BitVec.getLsbD_append, BitVec.getLsbD_zero, Nat.sub_sub]
  split_ifs <;> first | omega | rfl

@[simp] theorem Field.op_assemble : Field.op (Field.assemble op g d seed) = op := by
  apply BitVec.eq_of_getLsbD_eq
  intro i hi
  simp only [Field.op, BitVec.getLsbD_extractLsb', Field.assemble_bit]
  simp [hi]

@[simp] theorem Field.g_assemble : Field.g (Field.assemble op g d seed) = g := by
  apply BitVec.eq_of_getLsbD_eq
  intro i hi
  simp only [Field.g, BitVec.getLsbD_extractLsb', Field.assemble_bit]
  simp [hi, show 4 + i < 6 by omega]

@[simp] theorem Field.rsv_assemble : Field.rsv (Field.assemble op g d seed) = 0#2 := by
  apply BitVec.eq_of_getLsbD_eq
  intro i hi
  simp only [Field.rsv, BitVec.getLsbD_extractLsb', Field.assemble_bit]
  simp [show ¬ 6 + i < 4 by omega, show 6 + i < 8 by omega]

@[simp] theorem Field.d_assemble : Field.d (Field.assemble op g d seed) = d := by
  apply BitVec.eq_of_getLsbD_eq
  intro i hi
  simp only [Field.d, BitVec.getLsbD_extractLsb', Field.assemble_bit]
  simp [hi, show ¬ 8 + i < 4 by omega, show ¬ 8 + i < 6 by omega, show 8 + i < 16 by omega]

@[simp] theorem Field.seed_assemble : Field.seed (Field.assemble op g d seed) = seed := by
  apply BitVec.eq_of_getLsbD_eq
  intro i hi
  simp only [Field.seed, BitVec.getLsbD_extractLsb', Field.assemble_bit]
  simp [hi, show ¬ 16 + i < 4 by omega, show ¬ 16 + i < 6 by omega, show ¬ 16 + i < 8 by omega]

end Assemble

end Sys2Proof
end

