-- ==== Sys2Proof/Laws/Generator.lean ====
section
/-! SUPPORT. One step of a register and of a generator, and many. -/

namespace Sys2Proof.Machine

/-- The fold over the tap set is the four-term XOR of R100. -/
theorem feedback_eq (r : Bits32) :
    feedback r = (r.getLsbD 1 ^^ r.getLsbD 5 ^^ r.getLsbD 6 ^^ r.getLsbD 31) := by
  simp [feedback, Config.taps]

theorem nextReg_lsbOut_bit (r : Bits32) (i : Nat) :
    (nextReg .lsbOut r).getLsbD i = if i < 31 then r.getLsbD (i + 1) else if i = 31 then feedback r else false := by
  simp only [nextReg, BitVec.getLsbD_append, BitVec.getLsbD_extractLsb']
  by_cases h : i < 31
  · simp [h, Nat.add_comm]
  · by_cases h' : i = 31
    · simp [h']
    · simp [h, h', BitVec.getLsbD_ofBool, show i - 31 ≠ 0 by omega]

theorem nextReg_msbOut_bit (r : Bits32) (i : Nat) :
    (nextReg .msbOut r).getLsbD i =
      if i = 0 then feedback r else if i < 32 then r.getLsbD (i - 1) else false := by
  simp only [nextReg, BitVec.getLsbD_append, BitVec.getLsbD_extractLsb']
  rcases i with _ | i
  · simp
  · by_cases h : i < 31
    · simp [h, show i + 1 < 32 by omega]
    · simp [h, show ¬ i + 1 < 32 by omega]

theorem nextRegs_succ (o : Orient) (n : Nat) (r : Bits32) :
    nextRegs o (n + 1) r = nextReg o (nextRegs o n r) := by
  induction n generalizing r with
  | zero => rfl
  | succ n ih => exact ih (nextReg o r)

theorem nextRegs_add (o : Orient) (m n : Nat) (r : Bits32) :
    nextRegs o (m + n) r = nextRegs o n (nextRegs o m r) := by
  induction m generalizing r with
  | zero => simp [nextRegs]
  | succ m ih => rw [Nat.succ_add]; exact ih (nextReg o r)

@[simp] theorem feedback_zero : feedback 0#32 = false := by decide

@[simp] theorem nextReg_zero (o : Orient) : nextReg o 0#32 = 0#32 := by cases o <;> decide

section Step
variable (o : Orient) (g : Generator)
@[simp] theorem Generator.step_reg : (g.step o).reg = nextReg o g.reg := rfl
@[simp] theorem Generator.step_seed : (g.step o).seed = g.seed := rfl
@[simp] theorem Generator.step_count : (g.step o).count = g.count + 1 := rfl
@[simp] theorem Generator.step_lastOut : (g.step o).lastOut = some (outputBit o g.reg) := rfl
@[simp] theorem Generator.step_lastFb : (g.step o).lastFb = some (feedback g.reg) := rfl
@[simp] theorem Generator.step_hist : (g.step o).hist = pushHist g.hist (outputBit o g.reg) := rfl
end Step

theorem Generator.steps_succ (o : Orient) (n : Nat) (g : Generator) :
    g.steps o (n + 1) = (g.steps o n).step o := by
  induction n generalizing g with
  | zero => rfl
  | succ n ih => exact ih (g.step o)

theorem Generator.steps_add (o : Orient) (m n : Nat) (g : Generator) :
    g.steps o (m + n) = (g.steps o m).steps o n := by
  induction m generalizing g with
  | zero => simp [Generator.steps]
  | succ m ih => rw [Nat.succ_add]; exact ih (g.step o)

section Steps
variable (o : Orient) (n : Nat) (g : Generator)

@[simp] theorem Generator.steps_reg : (g.steps o n).reg = nextRegs o n g.reg := by
  induction n generalizing g with
  | zero => rfl
  | succ n ih => exact ih (g.step o)

@[simp] theorem Generator.steps_seed : (g.steps o n).seed = g.seed := by
  induction n generalizing g with
  | zero => rfl
  | succ n ih => exact ih (g.step o)

@[simp] theorem Generator.steps_count : (g.steps o n).count = g.count + n := by
  induction n generalizing g with
  | zero => rfl
  | succ n ih => rw [Generator.steps, ih, Generator.step_count]; omega

end Steps

section Construct
variable (seed : Bits32)
@[simp] theorem Generator.construct_reg : (Generator.construct seed).reg = seed := rfl
@[simp] theorem Generator.construct_seed : (Generator.construct seed).seed = seed := rfl
@[simp] theorem Generator.construct_count : (Generator.construct seed).count = 0 := rfl
@[simp] theorem Generator.construct_lastOut : (Generator.construct seed).lastOut = none := rfl
@[simp] theorem Generator.construct_lastFb : (Generator.construct seed).lastFb = none := rfl
@[simp] theorem Generator.construct_hist : (Generator.construct seed).hist = [] := rfl
end Construct

/-- A push never makes a history longer than its capacity. -/
theorem pushHist_length_le {h : List Bit} (b : Bit) (hh : h.length ≤ 64) : (pushHist h b).length ≤ 64 := by
  unfold pushHist
  split
  · rename_i hlt; simp only [Config.histCap] at hlt; simp; omega
  · simp; omega

end Sys2Proof.Machine
end

