-- ==== Sys2Proof/Laws/Session.lean ====
section
/-! SUPPORT. Bytes by entry, the cursor, the session's updates, and what a command and a step can answer. -/

namespace Sys2Proof.Machine

/-- Writing entry `j` writes that entry and no other. -/
theorem entryBit_setEntry (v : Byte) (i j : Nat) (b : Bit) (hi : i < 8) (hj : j < 8) :
    entryBit (setEntry v j b) i = if i = j then b else entryBit v i := by
  simp only [entryBit, setEntry, BitVec.getLsbD_or, BitVec.getLsbD_and, BitVec.getLsbD_not,
    BitVec.getLsbD_shiftLeft, BitVec.getLsbD_setWidth, BitVec.getLsbD_ofBool, BitVec.getLsbD_one]
  by_cases h : i = j
  · subst h; simp; omega
  · rcases Nat.lt_or_gt_of_ne h with h' | h'
    · simp [h, show 7 - i < 8 by omega, show ¬ 7 - i < 7 - j by omega, show 7 - i - (7 - j) ≠ 0 by omega]
    · simp [h, show 7 - i < 8 by omega, show 7 - i < 7 - j by omega]

theorem cursor_next_val {c : Cursor} (h : c.val < 8) : (Cursor.next c).val = c.val + 1 := by
  simp [Cursor.next, h]

section AfterPulse
variable (o : Orient) (S : Session)
@[simp] theorem Session.afterPulse_tx : (S.afterPulse o).tx = S.tx.step o := rfl
@[simp] theorem Session.afterPulse_rx : (S.afterPulse o).rx = S.rx.step o := rfl
@[simp] theorem Session.afterPulse_inp : (S.afterPulse o).inp = S.inp := rfl
@[simp] theorem Session.afterPulse_cursor : (S.afterPulse o).cursor = Cursor.next S.cursor := rfl
@[simp] theorem Session.afterPulse_accP :
    (S.afterPulse o).accP = setEntry S.accP S.cursor.val (S.pulse o).p := rfl
@[simp] theorem Session.afterPulse_accE :
    (S.afterPulse o).accE = setEntry S.accE S.cursor.val (S.pulse o).e := rfl
@[simp] theorem Session.afterPulse_accD :
    (S.afterPulse o).accD = setEntry S.accD S.cursor.val (S.pulse o).d := rfl
@[simp] theorem Session.afterPulse_pulses : (S.afterPulse o).pulses = S.pulses ++ [S.pulse o] := rfl
@[simp] theorem Session.afterPulse_sync : (S.afterPulse o).sync = S.sync := rfl
end AfterPulse

section Desynced
variable (o : Orient) (n : Nat) (S : Session)
@[simp] theorem Session.desynced_tx : (S.desynced o n).tx = S.tx := rfl
@[simp] theorem Session.desynced_rx : (S.desynced o n).rx = S.rx.steps o n := rfl
@[simp] theorem Session.desynced_inp : (S.desynced o n).inp = S.inp := rfl
@[simp] theorem Session.desynced_cursor : (S.desynced o n).cursor = S.cursor := rfl
@[simp] theorem Session.desynced_accP : (S.desynced o n).accP = S.accP := rfl
@[simp] theorem Session.desynced_accE : (S.desynced o n).accE = S.accE := rfl
@[simp] theorem Session.desynced_accD : (S.desynced o n).accD = S.accD := rfl
@[simp] theorem Session.desynced_pulses : (S.desynced o n).pulses = S.pulses := rfl
@[simp] theorem Session.desynced_sync : (S.desynced o n).sync = false := rfl
end Desynced

section NextByte
variable (S : Session)
@[simp] theorem Session.nextByte_tx : S.nextByte.tx = S.tx := rfl
@[simp] theorem Session.nextByte_rx : S.nextByte.rx = S.rx := rfl
@[simp] theorem Session.nextByte_inp : S.nextByte.inp = S.inp := rfl
@[simp] theorem Session.nextByte_cursor : S.nextByte.cursor = 0 := rfl
@[simp] theorem Session.nextByte_accP : S.nextByte.accP = 0 := rfl
@[simp] theorem Session.nextByte_accE : S.nextByte.accE = 0 := rfl
@[simp] theorem Session.nextByte_accD : S.nextByte.accD = 0 := rfl
@[simp] theorem Session.nextByte_pulses : S.nextByte.pulses = [] := rfl
@[simp] theorem Session.nextByte_sync : S.nextByte.sync = S.sync := rfl
end NextByte

section Fresh
variable (seed : Bits32)
@[simp] theorem Session.fresh_tx : (Session.fresh seed).tx = Generator.construct seed := rfl
@[simp] theorem Session.fresh_rx : (Session.fresh seed).rx = Generator.construct seed := rfl
@[simp] theorem Session.fresh_inp : (Session.fresh seed).inp = 0 := rfl
@[simp] theorem Session.fresh_cursor : (Session.fresh seed).cursor = 0 := rfl
@[simp] theorem Session.fresh_accP : (Session.fresh seed).accP = 0 := rfl
@[simp] theorem Session.fresh_accE : (Session.fresh seed).accE = 0 := rfl
@[simp] theorem Session.fresh_accD : (Session.fresh seed).accD = 0 := rfl
@[simp] theorem Session.fresh_pulses : (Session.fresh seed).pulses = [] := rfl
@[simp] theorem Session.fresh_sync : (Session.fresh seed).sync = true := rfl
end Fresh

/-- Everything an accepted or rejected command can do to the generators and the session; the response aside. -/
inductive Effect (s : State) : Generator → Session → Prop where
  | none : Effect s s.gen s.session
  | gstep : Effect s (s.gen.step s.orient) s.session
  | construct (seed : Bits32) : Effect s (Generator.construct seed) s.session
  | setin (d : Byte) (h : s.session.cursor.val = 0) : Effect s s.gen { s.session with inp := d }
  | submit (h : s.session.cursor.val < 8) : Effect s s.gen (s.session.afterPulse s.orient)
  | complete (h : s.session.cursor.val = 8) : Effect s s.gen s.session.nextByte
  | desync (h : s.session.sync = true) : Effect s s.gen (s.session.desynced s.orient s.draw)
  | fresh (seed : Bits32) : Effect s s.gen (Session.fresh seed)

/-- What `exec` can answer: always a next state, with one of these effects and one response, and nothing else. -/
theorem exec_cases (i : Instr) (s : State) :
    ∃ g S r, Effect s g S ∧ exec i s = .next (((s.setGen g).setSession S).setRsp (some r)) := by
  cases i with
  | gstep => exact ⟨_, _, _, .gstep, rfl⟩
  | greset => exact ⟨_, _, _, .construct s.gen.seed, rfl⟩
  | gseed seed => exact ⟨_, _, _, .construct seed, rfl⟩
  | peekGen => exact ⟨_, _, _, .none, rfl⟩
  | peekTx => exact ⟨_, _, _, .none, rfl⟩
  | peekRx => exact ⟨_, _, _, .none, rfl⟩
  | setin d =>
    by_cases h : s.session.cursor.val = 0
    · exact ⟨_, _, ⟨.ok, 0⟩, .setin d h, by simp [exec, execSetin, Session.locked, h, respond]; rfl⟩
    · exact ⟨_, _, ⟨.rejState, 0⟩, .none, by simp [exec, execSetin, Session.locked, h, reject]; rfl⟩
  | submit =>
    by_cases h : s.session.cursor.val = 8
    · exact ⟨_, _, ⟨.rejState, 0⟩, .none, by simp [exec, execSubmit, h, reject]; rfl⟩
    · exact ⟨_, _, ⟨.ok, (s.session.pulse s.orient).pack.setWidth 48⟩, .submit (by omega),
        by simp only [exec, execSubmit, h, respond]; rfl⟩
  | complete =>
    by_cases h : s.session.cursor.val = 8
    · exact ⟨_, _, ⟨.ok, 0⟩, .complete h, by simp [exec, execComplete, h, respond]; rfl⟩
    · exact ⟨_, _, ⟨.rejState, 0⟩, .none, by simp [exec, execComplete, h, reject]; rfl⟩
  | desync =>
    by_cases h : s.session.sync = true
    · exact ⟨_, _, ⟨.ok, BitVec.ofNat 48 s.draw⟩, .desync h, by simp [exec, execDesync, h, respond]; rfl⟩
    · exact ⟨_, _, ⟨.rejState, 0⟩, .none, by simp [exec, execDesync, h, reject]; rfl⟩
  | sreset => exact ⟨_, _, _, .fresh Config.defaultSeed, rfl⟩
  | sseed seed => exact ⟨_, _, _, .fresh seed, rfl⟩

/-- What `step` can answer: always a next state, with one of these effects (the reset pin's is the last), from the
sampled state. -/
theorem step_cases (s : State) :
    (∃ g S r, Effect s.sample g S ∧ step s = .next (((s.sample.setGen g).setSession S).setRsp r)) ∨
      step s = .next (resetBlock s.sample) := by
  unfold step serve
  split
  · exact .inr rfl
  · split
    · split
      · rename_i i _
        obtain ⟨g, S, r, he, h⟩ := exec_cases i s.sample
        exact .inl ⟨g, S, some r, he, h⟩
      · exact .inl ⟨_, _, _, .none, rfl⟩
    · exact .inl ⟨_, _, none, .none, rfl⟩

end Sys2Proof.Machine
end

