-- ==== Sys2Proof/Laws/State.lean ====
section
/-! SUPPORT. One lemma per field per update of State, and what the shared endings of a command can answer. -/

namespace Sys2Proof.Machine

section SetGen
variable (s : State) (g : Generator)
@[simp] theorem State.setGen_orient : (s.setGen g).orient = s.orient := rfl
@[simp] theorem State.setGen_gen : (s.setGen g).gen = g := rfl
@[simp] theorem State.setGen_session : (s.setGen g).session = s.session := rfl
@[simp] theorem State.setGen_rsp : (s.setGen g).rsp = s.rsp := rfl
@[simp] theorem State.setGen_pins : (s.setGen g).pins = s.pins := rfl
@[simp] theorem State.setGen_inputs : (s.setGen g).inputs = s.inputs := rfl
@[simp] theorem State.setGen_tick : (s.setGen g).tick = s.tick := rfl
end SetGen

section SetSession
variable (s : State) (S : Session)
@[simp] theorem State.setSession_orient : (s.setSession S).orient = s.orient := rfl
@[simp] theorem State.setSession_gen : (s.setSession S).gen = s.gen := rfl
@[simp] theorem State.setSession_session : (s.setSession S).session = S := rfl
@[simp] theorem State.setSession_rsp : (s.setSession S).rsp = s.rsp := rfl
@[simp] theorem State.setSession_pins : (s.setSession S).pins = s.pins := rfl
@[simp] theorem State.setSession_inputs : (s.setSession S).inputs = s.inputs := rfl
@[simp] theorem State.setSession_tick : (s.setSession S).tick = s.tick := rfl
end SetSession

section SetRsp
variable (s : State) (r : Option Response)
@[simp] theorem State.setRsp_orient : (s.setRsp r).orient = s.orient := rfl
@[simp] theorem State.setRsp_gen : (s.setRsp r).gen = s.gen := rfl
@[simp] theorem State.setRsp_session : (s.setRsp r).session = s.session := rfl
@[simp] theorem State.setRsp_rsp : (s.setRsp r).rsp = r := rfl
@[simp] theorem State.setRsp_pins : (s.setRsp r).pins = s.pins := rfl
@[simp] theorem State.setRsp_inputs : (s.setRsp r).inputs = s.inputs := rfl
@[simp] theorem State.setRsp_tick : (s.setRsp r).tick = s.tick := rfl
end SetRsp

section Sample
variable (s : State)
@[simp] theorem State.sample_orient : s.sample.orient = s.orient := rfl
@[simp] theorem State.sample_gen : s.sample.gen = s.gen := rfl
@[simp] theorem State.sample_session : s.sample.session = s.session := rfl
@[simp] theorem State.sample_rsp : s.sample.rsp = none := rfl
@[simp] theorem State.sample_pins : s.sample.pins = s.nextPins := rfl
@[simp] theorem State.sample_inputs : s.sample.inputs = s.inputs.tail := rfl
@[simp] theorem State.sample_tick : s.sample.tick = s.tick + 1 := rfl
end Sample

section ResetBlock
variable (s : State)
@[simp] theorem resetBlock_orient : (resetBlock s).orient = s.orient := rfl
@[simp] theorem resetBlock_gen : (resetBlock s).gen = Generator.construct Config.defaultSeed := rfl
@[simp] theorem resetBlock_session : (resetBlock s).session = Session.fresh Config.defaultSeed := rfl
@[simp] theorem resetBlock_rsp : (resetBlock s).rsp = none := rfl
@[simp] theorem resetBlock_pins : (resetBlock s).pins = s.pins := rfl
@[simp] theorem resetBlock_inputs : (resetBlock s).inputs = s.inputs := rfl
@[simp] theorem resetBlock_tick : (resetBlock s).tick = s.tick := rfl
end ResetBlock

/-- The field-by-field table of R47 is what the reset pin's constructors leave. -/
theorem construct_default_eq_reset : Generator.construct Config.defaultSeed = Generator.reset := rfl

theorem fresh_default_eq_reset : Session.fresh Config.defaultSeed = Session.reset := rfl

@[simp] theorem respond_eq_next {s t : State} {data : CmdWord} :
    respond s data = .next t ↔ s.setRsp (some ⟨.ok, data⟩) = t := by
  simp [respond]

@[simp] theorem reject_eq_next {s t : State} {code : Status} :
    reject s code = .next t ↔ s.setRsp (some ⟨code, 0⟩) = t := by
  simp [reject]

/-- The pins of a command just presented are the next ones sampled. -/
@[simp] theorem State.nextPins_present (s : State) (nbits w : Nat) :
    (s.present nbits w).nextPins = PortInput.command (tableWord nbits w) s.pins.desyncRnd := rfl

end Sys2Proof.Machine
end

