-- ==== Sys2Proof/Laws/Invariant.lean ====
section
/-! SUPPORT. What the session's updates do to its invariant, one lemma an update. -/

namespace Sys2Proof.Machine

theorem Generator.replayed_construct (o : Orient) (seed : Bits32) : (Generator.construct seed).Replayed o := rfl

theorem Generator.Replayed.step {o : Orient} {g : Generator} (h : g.Replayed o) : (g.step o).Replayed o := by
  have : g.step o = (Generator.replay o g.seed g.count).step o := congrArg (Generator.step o) h
  rw [Generator.Replayed, this]
  simp [Generator.replay, Generator.steps_succ]

theorem Generator.Replayed.steps {o : Orient} {g : Generator} (h : g.Replayed o) (n : Nat) :
    (g.steps o n).Replayed o := by
  induction n with
  | zero => exact h
  | succ n ih => rw [Generator.steps_succ]; exact ih.step

/-- The register of a replayed generator. -/
theorem Generator.Replayed.reg_eq {o : Orient} {g : Generator} (h : g.Replayed o) :
    g.reg = nextRegs o g.count g.seed := by
  conv_lhs => rw [h]
  simp [Generator.replay]

theorem Generator.Replayed.outputBit_eq {o : Orient} {g : Generator} (h : g.Replayed o) :
    outputBit o g.reg = outAt o g.seed g.count := by
  rw [h.reg_eq, outAt]

theorem Session.Inv.fresh (o : Orient) (seed : Bits32) : (Session.fresh seed).Inv o where
  tx_replayed := rfl
  rx_replayed := rfl
  same_seed := rfl
  synced_eq _ := rfl
  desynced_ahead h := by simp at h
  pulse_count := rfl
  records_fit j r h := by simp at h
  rest_clear j _ _ := by simp [entryBit]
  synced_records _ r h := by simp at h
  keystream := ⟨0, rfl, fun j r h => by simp at h⟩

theorem Session.Inv.nextByte {o : Orient} {S : Session} (hi : S.Inv o) (h : S.cursor.val = 8) : S.nextByte.Inv o where
  tx_replayed := hi.tx_replayed
  rx_replayed := hi.rx_replayed
  same_seed := hi.same_seed
  synced_eq := hi.synced_eq
  desynced_ahead := hi.desynced_ahead
  pulse_count := rfl
  records_fit j r h := by simp at h
  rest_clear j _ _ := by simp [entryBit]
  synced_records _ r h := by simp at h
  keystream := by
    obtain ⟨m, hm, -⟩ := hi.keystream
    exact ⟨m + 1, by simp [hm, h]; omega, fun j r h => by simp at h⟩

theorem Session.Inv.setin {o : Orient} {S : Session} (hi : S.Inv o) (h : S.cursor.val = 0) (d : Byte) :
    Session.Inv o { S with inp := d } where
  tx_replayed := hi.tx_replayed
  rx_replayed := hi.rx_replayed
  same_seed := hi.same_seed
  synced_eq := hi.synced_eq
  desynced_ahead := hi.desynced_ahead
  pulse_count := hi.pulse_count
  records_fit j r hr := by
    have := (List.getElem?_eq_some_iff.mp hr).1
    have := hi.pulse_count
    simp_all
  rest_clear := hi.rest_clear
  synced_records := hi.synced_records
  keystream := hi.keystream

theorem Session.Inv.desynced {o : Orient} {S : Session} (hi : S.Inv o) (h : S.sync = true) {n : Nat}
    (h3 : 3 ≤ n) (h10 : n ≤ 10) : (S.desynced o n).Inv o where
  tx_replayed := hi.tx_replayed
  rx_replayed := hi.rx_replayed.steps n
  same_seed := by simpa using hi.same_seed
  synced_eq h' := by simp at h'
  desynced_ahead _ := ⟨n, h3, h10, by simp [hi.synced_eq h]⟩
  pulse_count := hi.pulse_count
  records_fit j r hr := by
    have := hi.records_fit j r hr
    exact ⟨this.1, this.2, this.3, this.4, this.5, this.6, this.7, this.8⟩
  rest_clear := hi.rest_clear
  synced_records h' := by simp at h'
  keystream := hi.keystream

theorem Session.Inv.afterPulse {o : Orient} {S : Session} (hi : S.Inv o) (h : S.cursor.val < 8) :
    (S.afterPulse o).Inv o where
  tx_replayed := hi.tx_replayed.step
  rx_replayed := hi.rx_replayed.step
  same_seed := hi.same_seed
  synced_eq hs := by simp [hi.synced_eq hs]
  desynced_ahead hs := by
    obtain ⟨n, h3, h10, hn⟩ := hi.desynced_ahead hs
    exact ⟨n, h3, h10, by simp [hn]; omega⟩
  pulse_count := by simp [hi.pulse_count, cursor_next_val h]
  records_fit j r hr := by
    simp only [Session.afterPulse_pulses, List.getElem?_append, hi.pulse_count] at hr
    split at hr
    · rename_i hj
      have hf := hi.records_fit j r hr
      have hne : j ≠ S.cursor.val := by omega
      constructor <;>
        simp [entryBit_setEntry, hne, h, show j < 8 by omega, hf.index_eq, hf.accP_bit, hf.accE_bit, hf.accD_bit,
          hf.inp_bit, hf.e_eq, hf.d_eq, hf.matched_eq]
    · rename_i hj
      have hj' : j = S.cursor.val := by
        rcases Nat.lt_or_eq_of_le (Nat.le_of_not_lt hj) with h' | h'
        · simp [show j - S.cursor.val ≠ 0 by omega] at hr
        · exact h'.symm
      subst hj'
      simp only [Nat.sub_self, List.getElem?_cons_zero, Option.some.injEq] at hr
      subst hr
      constructor <;> simp [entryBit_setEntry, h, Session.pulse, matchedBit, Fin.ofNat]
  rest_clear j hc hj := by
    rw [Session.afterPulse_cursor, cursor_next_val h] at hc
    have := hi.rest_clear j (by omega) hj
    simp [entryBit_setEntry, hj, h, show j ≠ S.cursor.val by omega, this]
  synced_records hs r hr := by
    simp only [Session.afterPulse_pulses, List.mem_append, List.mem_singleton] at hr
    rcases hr with hr | rfl
    · exact hi.synced_records hs r hr
    · simp [Session.pulse, hi.synced_eq hs]
  keystream := by
    obtain ⟨m, hm, hk⟩ := hi.keystream
    refine ⟨m, by simp [hm, cursor_next_val h]; omega, fun j r hr => ?_⟩
    simp only [Session.afterPulse_pulses, List.getElem?_append, hi.pulse_count] at hr
    split at hr
    · exact hk j r hr
    · rename_i hj
      have hj' : j = S.cursor.val := by
        rcases Nat.lt_or_eq_of_le (Nat.le_of_not_lt hj) with h' | h'
        · simp [show j - S.cursor.val ≠ 0 by omega] at hr
        · exact h'.symm
      subst hj'
      simp only [Nat.sub_self, List.getElem?_cons_zero, Option.some.injEq] at hr
      subst hr
      simp [Session.pulse, hi.tx_replayed.outputBit_eq, hm]

theorem draw_bounds (s : State) : 3 ≤ s.draw ∧ s.draw ≤ 10 := by
  have := s.pins.desyncRnd.isLt
  simp only [State.draw, Config.desyncMin]
  omega

theorem Effect.inv {s : State} {g : Generator} {S : Session} (he : Effect s g S) (hi : s.Inv) :
    g.Replayed s.orient ∧ S.Inv s.orient := by
  cases he with
  | none => exact ⟨hi.gen_replayed, hi.session_inv⟩
  | gstep => exact ⟨hi.gen_replayed.step, hi.session_inv⟩
  | construct seed => exact ⟨rfl, hi.session_inv⟩
  | setin d h => exact ⟨hi.gen_replayed, hi.session_inv.setin h d⟩
  | submit h => exact ⟨hi.gen_replayed, hi.session_inv.afterPulse h⟩
  | complete h => exact ⟨hi.gen_replayed, hi.session_inv.nextByte h⟩
  | desync h => exact ⟨hi.gen_replayed, hi.session_inv.desynced h (draw_bounds s).1 (draw_bounds s).2⟩
  | fresh seed => exact ⟨hi.gen_replayed, Session.Inv.fresh _ seed⟩

end Sys2Proof.Machine
end

