-- ==== Sys2Proof/Laws/PerInstr.lean ====
section
/-! SUPPORT. A family of facts, one per command: the encoder's word of a command is one that the command's own row of
spec/opcode_table.json accepts. -/

namespace Sys2Proof.Laws.EncodesInItsRow

def Statement (i : Instr) : Prop := i.row.accepts (encode i) = true

theorem gstep : Statement .gstep := rfl
theorem greset : Statement .greset := rfl
theorem peekGen : Statement .peekGen := rfl
theorem peekTx : Statement .peekTx := rfl
theorem peekRx : Statement .peekRx := rfl
theorem submit : Statement .submit := rfl
theorem complete : Statement .complete := rfl
theorem desync : Statement .desync := rfl
theorem sreset : Statement .sreset := rfl

/-- A word under a mask, bit by bit. -/
theorem masked_eq {w m b : CmdWord} (h : ∀ i < 48, (w.getLsbD i && m.getLsbD i) = b.getLsbD i) : w &&& m = b :=
  BitVec.eq_of_getLsbD_eq fun i hi => by rw [BitVec.getLsbD_and, h i hi]

theorem gseed (seed : Bits32) : Statement (.gseed seed) := by
  simp only [Statement, OpcodeRow.accepts, Instr.row, encode, beq_iff_eq]
  refine masked_eq fun i hi => ?_
  rw [Field.assemble_bit]
  interval_cases i <;> simp

theorem sseed (seed : Bits32) : Statement (.sseed seed) := by
  simp only [Statement, OpcodeRow.accepts, Instr.row, encode, beq_iff_eq]
  refine masked_eq fun i hi => ?_
  rw [Field.assemble_bit]
  interval_cases i <;> simp

theorem setin (d : Byte) : Statement (.setin d) := by
  simp only [Statement, OpcodeRow.accepts, Instr.row, encode, beq_iff_eq]
  refine masked_eq fun i hi => ?_
  rw [Field.assemble_bit]
  interval_cases i <;> simp

end Sys2Proof.Laws.EncodesInItsRow
end

