-- ==== Sys2Proof/Laws/Ports.lean ====
section
/-! SUPPORT. When the observation ports are defined, and what they show then: the later facts about ports start from
these and do not unfold the ports. -/

namespace Sys2Proof.Machine

theorem State.cmdReady_eq (s : State) : s.cmdReady = !s.pins.resets := rfl

@[simp] theorem State.responsePorts_cmdReady (s : State) : s.responsePorts.cmdReady = s.cmdReady := rfl

@[simp] theorem State.responsePorts_rspValid (s : State) : s.responsePorts.rspValid = s.rsp.isSome := rfl

theorem State.generatorPorts_of_ready {s : State} (h : s.cmdReady = true) (w : Nat) (sel : GenSel) :
    s.generatorPorts w sel = s.definedGeneratorPorts w sel := by
  simp [State.generatorPorts, h]

theorem State.sessionPorts_of_ready {s : State} (h : s.cmdReady = true) : s.sessionPorts = s.definedSessionPorts := by
  simp [State.sessionPorts, h]

theorem State.generatorPorts_of_not_ready {s : State} (h : s.cmdReady = false) (w : Nat) (sel : GenSel) :
    s.generatorPorts w sel = freeGeneratorPorts w sel s.tick := by
  simp [State.generatorPorts, h]

theorem State.sessionPorts_of_not_ready {s : State} (h : s.cmdReady = false) :
    s.sessionPorts = freeSessionPorts s.tick := by
  simp [State.sessionPorts, h]

end Sys2Proof.Machine
end

