-- ==== Sys2Proof/Tests/Slice0.lean ====
section
/-! SUPPORT. The model's own tests. Expected values are from spec/95_test_vectors.md (its part is named at each group);
the witnesses show that the hypotheses of the statements in Certificates/Slice0/Obligations.lean can be met. -/

namespace Sys2Proof.Tests

open Sys2Proof.Machine

/-! ## Legal words (L2.4): one ill-formed word for each check -/

theorem test_illegal_opcode_0 : legalWord 0x000000000000#48 = false := by decide
theorem test_illegal_opcode_B : legalWord 0x00000000000B#48 = false := by decide
theorem test_illegal_opcode_F : legalWord 0x00000000000F#48 = false := by decide
theorem test_illegal_rsv : legalWord 0x000000000046#48 = false := by decide
theorem test_illegal_peek_3 : legalWord 0x000000000034#48 = false := by decide
theorem test_illegal_g_unused : legalWord 0x000000000016#48 = false := by decide
theorem test_illegal_d_unused : legalWord 0x000000000103#48 = false := by decide
theorem test_illegal_seed_unused : legalWord 0x000100000014#48 = false := by decide
theorem test_legal_seed : legalWord 0xFFFFFFFF0003#48 = true := by decide
theorem test_decode_names_rsv : decode 0x0000000000C1#48 = .error .reservedBits := by decide
theorem test_decode_names_opcode : decode 0x00000000000B#48 = .error .reservedOpcode := by decide
theorem test_decode_names_generator : decode 0x000000000034#48 = .error .reservedGenerator := by decide
theorem test_decode_names_unused : decode 0x000100004105#48 = .error .unusedField := by decide

/-! ## Decoding: the words of L2.4, and the encoder on them -/

theorem test_decode_gstep : decode 0x000000000001#48 = .ok .gstep := by decide
theorem test_decode_greset : decode 0x000000000002#48 = .ok .greset := by decide
theorem test_decode_gseed : decode 0xB33C87E30003#48 = .ok (.gseed 0xB33C87E3#32) := by decide
theorem test_decode_gseed_all_ones : decode 0xFFFFFFFF0003#48 = .ok (.gseed 0xFFFFFFFF#32) := by decide
theorem test_decode_peekGen : decode 0x000000000004#48 = .ok .peekGen := by decide
theorem test_decode_peekTx : decode 0x000000000014#48 = .ok .peekTx := by decide
theorem test_decode_peekRx : decode 0x000000000024#48 = .ok .peekRx := by decide
theorem test_decode_setin : decode 0x000000004105#48 = .ok (.setin 0x41#8) := by decide
theorem test_decode_setin_all_ones : decode 0x00000000FF05#48 = .ok (.setin 0xFF#8) := by decide
theorem test_decode_submit : decode 0x000000000006#48 = .ok .submit := by decide
theorem test_decode_complete : decode 0x000000000007#48 = .ok .complete := by decide
theorem test_decode_desync : decode 0x000000000008#48 = .ok .desync := by decide
theorem test_decode_sreset : decode 0x000000000009#48 = .ok .sreset := by decide
theorem test_decode_sseed : decode 0xB33C87E3000A#48 = .ok (.sseed 0xB33C87E3#32) := by decide
theorem test_encode_sseed : encode (.sseed 0xB33C87E3#32) = 0xB33C87E3000A#48 := by decide
theorem test_encode_setin : encode (.setin 0x41#8) = 0x000000004105#48 := by decide
theorem test_encode_peekRx : encode .peekRx = 0x000000000024#48 := by decide
/-- The table gives GSEED's row 16 fixed bits; the seed's bits are then 0. -/
theorem test_decodeTableWord_short : decodeTableWord 16 3 = some (.gseed 0) := by decide
theorem test_decodeTableWord_illegal : decodeTableWord 48 0x34 = none := by decide

/-! ## The pure step (L2.1) -/

theorem test_next_lsb_default : nextReg .lsbOut 0xB38F0F83#32 = 0x59C787C1#32 := by decide
theorem test_next_msb_default : nextReg .msbOut 0xB38F0F83#32 = 0x671E1F06#32 := by decide
theorem test_next_lsb_tap31 : nextReg .lsbOut 0x80000001#32 = 0xC0000000#32 := by decide
theorem test_next_lsb_taps_1_5_6 : nextReg .lsbOut 0x00000062#32 = 0x80000031#32 := by decide
theorem test_next_msb_tap5 : nextReg .msbOut 0x00000020#32 = 0x00000041#32 := by decide
theorem test_next_msb_three_taps : nextReg .msbOut 0x7FFFFFFF#32 = 0xFFFFFFFF#32 := by decide
theorem test_feedback_cancels : feedback 0xFFFFFFFF#32 = false := by decide
/-- L2.3: the 15-step cycle under `LSB_OUT`. -/
theorem test_cycle_15 : nextRegs .lsbOut (5 + 5 + 5) 0x4D789AF1#32 = 0x4D789AF1#32 := by
  rw [nextRegs_add, nextRegs_add, show nextRegs .lsbOut 5 0x4D789AF1#32 = 0xE26BC4D7#32 by decide,
    show nextRegs .lsbOut 5 0xE26BC4D7#32 = 0xAF135E26#32 by decide]
  decide

/-! ## Small states -/

/-- The block built with orientation `o`, its session freshly reset with `seed`, byte `inp` loaded. -/
def loaded (o : Orient) (seed : Bits32) (inp : Byte) : State :=
  { State.reset with orient := o, session := { Session.fresh seed with inp := inp } }

/-- The reset state with another cursor and flag. -/
def atCursor (c : Cursor) (sync : Bit) : State :=
  { State.reset with session := { Session.reset with cursor := c, sync := sync } }

/-- What a command answers, as `f` of the state after it. -/
def after {α : Type} (i : Instr) (s : State) (f : State → α) : Option α :=
  match exec i s with
  | .next t => some (f t)
  | .fault _ => none
  | .refused _ => none

/-! ## Generator commands (L2.5) -/

theorem test_gstep_data : after .gstep State.reset (·.rsp) = some (some ⟨.ok, 0x000159C787C1#48⟩) := by decide
theorem test_gstep_gen : after .gstep State.reset (·.gen) =
    some ⟨0x59C787C1#32, 0xB38F0F83#32, 1, some true, some false, [true]⟩ := by decide
theorem test_gstep_msb : after .gstep (loaded .msbOut 0 0) (·.rsp) = some (some ⟨.ok, 0x0001671E1F06#48⟩) := by decide
theorem test_greset : after .greset { State.reset with gen := ⟨0x11000000#32, 0x62#32, 8, some false, some false,
    [false, true, false, false, false, true, true, false]⟩ } (·.gen) = some ⟨0x62#32, 0x62#32, 0, none, none, []⟩ := by
  decide
theorem test_gseed : after (.gseed 0x62#32) State.reset (·.gen) = some ⟨0x62#32, 0x62#32, 0, none, none, []⟩ := by
  decide
theorem test_peekGen : after .peekGen { State.reset with gen := Generator.construct 0x11000000#32 } (·.rsp) =
    some (some ⟨.ok, 0x000011000000#48⟩) := by decide
theorem test_peekTx : after .peekTx State.reset (·.rsp) = some (some ⟨.ok, 0x0000B38F0F83#48⟩) := by decide
theorem test_peekRx : after .peekRx { State.reset with session.rx := Generator.construct 0xB0B33C87#32 } (·.rsp) =
    some (some ⟨.ok, 0x0000B0B33C87#48⟩) := by decide

/-! ## Session commands (L2.6) -/

theorem test_setin : after (.setin 0x41#8) State.reset (·.session.inp) = some 0x41#8 := by decide
/-- L2.8. -/
theorem test_setin_rejected : after (.setin 0x42#8) (atCursor 3 true) (fun t => (t.rsp, t.session.inp)) =
    some (some ⟨.rejState, 0⟩, 0x00#8) := by decide
theorem test_submit_lsb : after .submit (loaded .lsbOut 0xB33C87E3#32 0x41#8)
    (fun t => (t.rsp, t.session.accP, t.session.accE, t.session.accD, t.session.tx.reg)) =
    some (some ⟨.ok, 0x000000000170#48⟩, 0x00#8, 0x80#8, 0x00#8, 0x599E43F1#32) := by decide
/-- L2.6, `MSB_OUT`, the row of cursor 1. -/
theorem test_submit_msb : after .submit { loaded .msbOut 0x66790FC6#32 0x41#8 with
    session := { (loaded .msbOut 0x66790FC6#32 0x41#8).session with cursor := 1, accE := 0x80#8 } }
    (fun t => (t.rsp, t.session.accP, t.session.accE, t.session.accD, t.session.rx.reg)) =
    some (some ⟨.ok, 0x0000000001A9#48⟩, 0x40#8, 0xC0#8, 0x40#8, 0xCCF21F8C#32) := by decide
theorem test_complete : after .complete (atCursor 8 true) (·.session.cursor.val) = some 0 := by decide
theorem test_complete_rejected : after .complete (atCursor 0 true) (·.rsp) = some (some ⟨.rejState, 0⟩) := by decide
theorem test_sreset : after .sreset (loaded .lsbOut 0x12345678#32 0x41#8)
    (fun t => (t.session.tx.seed, t.session.rx.seed, t.session.inp)) =
    some (0xB38F0F83#32, 0xB38F0F83#32, 0x00#8) := by decide
theorem test_sseed : after (.sseed 0xB33C87E3#32) (atCursor 3 false)
    (fun t => (t.session.tx, t.session.cursor.val, t.session.sync)) =
    some (⟨0xB33C87E3#32, 0xB33C87E3#32, 0, none, none, []⟩, 0, true) := by decide

/-! ## DESYNC (L2.7) -/

/-- A loaded state with the draw input `rnd` sampled. -/
def drawn (o : Orient) (rnd : BitVec 3) : State :=
  { loaded o 0xB33C87E3#32 0 with pins := PortInput.command 8#48 rnd }

theorem test_desync_3 : after .desync (drawn .lsbOut 0) (fun t => (t.rsp, t.session.rx, t.session.sync)) =
    some (some ⟨.ok, 3#48⟩, ⟨0x166790FC#32, 0xB33C87E3#32, 3, some false, some false, [true, true, false]⟩, false) := by
  decide
theorem test_desync_10_msb : after .desync (drawn .msbOut 7) (fun t => (t.rsp, t.session.rx.reg, t.session.tx.reg)) =
    some (some ⟨.ok, 10#48⟩, 0xF21F8CD2#32, 0xB33C87E3#32) := by decide

/-! ## Steps, illegal words and the reset pin (L2.4, L2.8, L2.9) -/

/-- What a step answers, as `f` of the state after it. -/
def afterStep {α : Type} (s : State) (f : State → α) : Option α :=
  match step s with
  | .next t => some (f t)
  | .fault _ => none
  | .refused _ => none

theorem test_step_gstep : afterStep (State.reset.withFetchWord 48 1) (fun t => (t.rsp, t.gen.count, t.tick)) =
    some (some ⟨.ok, 0x000159C787C1#48⟩, 1, 1) := by decide
theorem test_step_illegal : afterStep (State.reset.withFetchWord 48 0x34)
    (fun t => (t.rsp, t.gen, t.session)) =
    some (some ⟨.rejIllegal, 0⟩, State.reset.gen, State.reset.session) := by decide
/-- L2.8: the encoding check comes before the state check. -/
theorem test_step_priority : afterStep ((atCursor 8 false).withFetchWord 48 0x108) (·.rsp) =
    some (some ⟨.rejIllegal, 0⟩) := by decide
theorem test_step_reset_pin : afterStep { loaded .msbOut 1 0xFF#8 with
    inputs := [{ PortInput.command 6 0 with rst := true }] }
    (fun t => (t.rsp, t.session, t.responsePorts.cmdReady)) = some (none, State.reset.session, false) := by decide
theorem test_step_reset_in_flight : afterStep { loaded .lsbOut 1 0xFF#8 with
    inputs := [{ PortInput.command 6 0 with rstInFlight := true }] }
    (fun t => (t.rsp, t.session)) = some (none, State.reset.session) := by decide

/-! ## Ports (L2.9, L2.7) -/

theorem test_ports_reset_reg : (State.reset.generatorPorts 8 .gen).reg = 0xB38F0F83#32 := by decide
theorem test_ports_reset_valid : (State.reset.generatorPorts 8 .rx).outV = false := by decide
theorem test_ports_hist_order : packHist [true, true, false, true] = 0xB#64 := by decide
theorem test_ports_phase : (atCursor 8 true).sessionPorts.phase = 2#2 := by decide
/-- R46, R180: after an edge with `rst` = 1 the ports are not defined, after the next edge they are. -/
theorem test_ports_not_ready : afterStep { State.reset with inputs := [{ PortInput.command 6 0 with rst := true }] }
    (·.cmdReady) = some false := by decide
theorem test_ports_ready_again : afterStep { State.reset with pins := { PortInput.idle with rst := true } }
    (fun t => (t.cmdReady, t.sessionPorts.sync)) = some (true, true) := by decide
/-- L2.6: records (0,0,1,1,1,0,1) and (1,1,1,0,1,1,1). -/
theorem test_ports_pulses : packPulses [⟨0, false, true, true, true, false, true⟩,
    ⟨1, true, true, false, true, true, true⟩] = 0x3B370#72 := by decide

/-! ## Assembly (R79, R80) -/

theorem test_asm_range_seed : (AsmLine.sseed (2 ^ 32)).wellFormed = false := by decide
theorem test_asm_range_byte : (AsmLine.setin 256).wellFormed = false := by decide
theorem test_asm_range_draw : (AsmLine.desync (some 11)).wellFormed = false := by decide
theorem test_asm_comment : parseLine [' ', 's', 'u', 'b', 'm', 'i', 't', ' ', ';', 'x'] = .ok (some .submit) := by
  decide
theorem test_asm_hex : parseLine ['s', 'e', 't', 'i', 'n', '\t', '0', 'x', '4', '1'] = .ok (some (.setin 0x41)) := by
  decide
theorem test_asm_draw : parseLine ['d', 'e', 's', 'y', 'n', 'c', ' ', '@', '3'] = .ok (some (.desync (some 3))) := by
  decide
theorem test_asm_peek_word : (AsmLine.peek .rx).expand.map (·.map fun a => encode a.instr) =
    .ok [0x000000000024#48] := by decide

/-- R79: the example words of `peek rx` and `setin 0x41`, and the draw that `desync @10` records. -/
theorem test_asm_program : (assemble [['p', 'e', 'e', 'k', ' ', 'r', 'x'], [';'],
    ['s', 'e', 't', 'i', 'n', ' ', '6', '5', ';'], ['d', 'e', 's', 'y', 'n', 'c', ' ', '@', '1', '0']]).map
      (·.map fun a => (encode a.instr, a.rnd)) =
    .ok [(0x000000000024#48, none), (0x000000004105#48, none), (0x000000000008#48, some 7#3)] := by decide

/-! ## Witnesses: the hypotheses of each statement can be met -/

/-- A state in which the host presents `x` next. -/
def presenting (x : PortInput) : State := { State.reset with inputs := [x] }

/-- Pins at an edge with the reset pin 1, and with a reset while the command is in flight. -/
def rstPins : PortInput := { PortInput.command 6#48 0 with rst := true }
@[inherit_doc rstPins] def rstLatePins : PortInput := { PortInput.command 6#48 0 with rstInFlight := true }

theorem witness_TableDecidesDecoding : decode 0xFFFFFFFF000A#48 = .ok (.sseed 0xFFFFFFFF#32) ∧
    Instr.peekRx.row ∈ opcodeRows ∧ Instr.peekRx.row.accepts 0x24#48 = true := by decide

theorem witness_IllegalWordsRejected :
    (presenting (.command 0x34#48 7)).nextPins.resets = false ∧
    (presenting (.command 0x34#48 7)).nextPins.cmdValid = true ∧
    ∀ i, decode (presenting (.command 0x34#48 7)).nextPins.cmdWord ≠ .ok i :=
  ⟨rfl, rfl, fun i h => nomatch (show Except.error Illegal.reservedGenerator = .ok i from h)⟩

theorem witness_StepRunsDecodedCommand :
    (presenting (.command 0xFF05#48 0)).nextPins.resets = false ∧
    (presenting (.command 0xFF05#48 0)).nextPins.cmdValid = true ∧
    decode (presenting (.command 0xFF05#48 0)).nextPins.cmdWord = .ok (.setin 0xFF#8) := by decide

theorem witness_RejectionPriority :
    (presenting rstPins).nextPins.rst = true ∧
    legalWord (presenting (.command 0x108#48 0)).nextPins.cmdWord = false ∧
    legalWord (presenting (.command 0x8#48 0)).nextPins.cmdWord = true ∧
    (presenting (.command 0x8#48 0)).nextPins.resets = false ∧
    (presenting (.command 0x108#48 0)).nextPins.resets = false := by decide

theorem witness_ResetPinResetsBlock :
    (presenting rstPins).nextPins.rst = true ∧ (presenting .idle).nextPins.resets = false := by decide

theorem witness_ResetAbandonsCommand :
    (presenting rstLatePins).nextPins.cmdValid = true ∧ (presenting rstLatePins).nextPins.rstInFlight = true ∧
    rstPins.rst = true ∧ rstPins.cmdValid = true := by decide

theorem witness_IdleEdgeChangesNothing :
    State.reset.nextPins.rst = false ∧ State.reset.nextPins.cmdValid = false := by decide

theorem witness_ResponseValidForOneClock :
    (presenting (.command 6#48 0)).nextPins.resets = false ∧ (presenting (.command 6#48 0)).nextPins.cmdValid = true ∧
    State.reset.nextPins.cmdValid = false := by decide

/-- A command that is rejected, with its response: BlockNeverStops, StateRejectionCauses, ResponseDataLayout. -/
theorem witness_rejected_response : ∃ t r, exec .submit (atCursor 8 true) = .next t ∧ t.rsp = some r ∧
    r.status = .rejState := ⟨_, _, rfl, rfl, rfl⟩

/-- A command that is accepted, with its response: ResponseDataLayout. -/
theorem witness_accepted_response : ∃ t r, exec .desync (atCursor 8 true) = .next t ∧ t.rsp = some r ∧
    r.status = .ok := ⟨_, _, rfl, rfl, rfl⟩

theorem witness_ResponseStatusCodes :
    (∃ t, step (presenting (.command 0#48 0)) = .next t ∧ t.rsp.isSome = true) ∧
    (∃ t r, exec .complete (atCursor 7 true) = .next t ∧ t.rsp = some r) := ⟨⟨_, rfl, rfl⟩, ⟨_, _, rfl, rfl⟩⟩

theorem witness_ZeroRegisterStaysZero : (Generator.construct 0#32).reg = 0#32 := rfl

theorem witness_LsbStepForgetsBitZero : (0x00000001#32).extractLsb' 1 31 = 0#31 := by decide

theorem witness_HistoryHoldsLastOutputs :
    ([] : List Bit).length < 64 ∧ (List.replicate 63 true).length < 64 ∧ (List.replicate 64 true).length = 64 := by
  simp

theorem witness_GresetRestoresStoredSeed : ∃ t, exec .greset State.reset = .next t := ⟨_, rfl⟩

theorem witness_GseedReplacesSeed : ∃ t u v, exec (.gseed 0#32) State.reset = .next t ∧ exec .gstep t = .next u ∧
    exec .greset u = .next v := ⟨_, _, _, rfl, rfl, rfl⟩

theorem witness_SetinLoadsBufferAtCursorZero :
    (atCursor 0 false).session.cursor.val = 0 ∧ (atCursor 1 true).session.cursor.val ≠ 0 ∧
    (atCursor 8 true).session.cursor.val ≠ 0 := by decide

theorem witness_SubmitProcessesOneBit :
    (atCursor 8 false).session.cursor.val = 8 ∧ (atCursor 0 true).session.cursor.val < 8 ∧
    (atCursor 7 false).session.cursor.val < 8 := by decide

theorem witness_CompleteClearsByteOnly :
    (atCursor 8 false).session.cursor.val = 8 ∧ (atCursor 0 true).session.cursor.val ≠ 8 ∧
    (atCursor 7 true).session.cursor.val ≠ 8 := by decide

theorem witness_DesyncStepsRxAlone :
    (atCursor 8 true).session.sync = true ∧ (atCursor 0 false).session.sync = false := by decide

theorem witness_DrawsAreThreeToTen :
    ({ State.reset with pins.desyncRnd := 0#3 } : State).draw = 3 ∧
    ({ State.reset with pins.desyncRnd := 7#3 } : State).draw = 10 := by decide

theorem witness_SyncFlagMachine :
    (presenting rstPins).nextPins.rst = true ∧ (atCursor 3 false).session.sync = false := by decide

theorem witness_DesyncLastsUntilSessionReset :
    (∀ i ∈ [Instr.submit, .complete, .desync, .gstep], isSessionReset i = false) ∧
    (atCursor 7 false).session.sync = false ∧ ∃ t, exec .complete (atCursor 8 false) = .next t :=
  ⟨by decide, rfl, _, rfl⟩

theorem reset_inv : State.reset.Inv := ⟨rfl, Session.Inv.fresh _ _⟩

theorem witness_StepKeepsInvariant : State.reset.Inv ∧ ∃ t, step State.reset = .next t := ⟨reset_inv, _, rfl⟩

/-- A run from a reachable state ends in a reachable state. -/
theorem reachable_run (k : Nat) {s t : State} (hs : Reachable s) (h : core.run k s = .next t) : Reachable t := by
  induction k generalizing s with
  | zero => cases h; exact hs
  | succ k ih =>
    cases hst : step s with
    | next u =>
      have h' : core.run k u = .next t := by
        have hst' : core.step s = .next u := hst
        simpa only [Host.Core.run, hst'] using h
      exact ih (.step s u hs hst) h'
    | fault f => cases f
    | refused r =>
      have hst' : core.step s = .refused r := hst
      simp only [Host.Core.run, hst'] at h
      cases h

/-- Reset, then eight SUBMITs presented. -/
def eightSubmits (o : Orient) : State :=
  { State.reset with orient := o, inputs := List.replicate 8 (.command 6#48 0) }

theorem eightSubmits_reachable (o : Orient) : Reachable (eightSubmits o) :=
  .host { State.reset with orient := o } _ (.reset o)

/-- ReachableBytesArePositional, ReachableSyncedGeneratorsEqual, ReachableGeneratorsReplaySeed and the first clauses of
SynchronyRecoversPlaintext and RxStaysExactlyAhead, at cursor 0. -/
theorem witness_reachable_synced : Reachable State.reset ∧ State.reset.session.sync = true ∧
    State.reset.session.cursor.val < 8 := ⟨.reset _, rfl, by decide⟩

/-- The keystream byte of `DEFAULT_SEED` under `LSB_OUT` is 0xC1 (L1.4): SynchronyRecoversPlaintext,
BytesContinueKeystream and CiphertextIsXorOfKeystream at a full byte. -/
theorem witness_reachable_full_byte : ∃ s, Reachable s ∧ s.session.sync = true ∧ s.session.cursor.val = 8 ∧
    s.session.accE = 0xC1#8 ∧ ∀ j < 8, ∃ r, s.session.pulses[j]? = some r ∧
      (0xC1#8).getLsbD (7 - j) = r.kTx ∧ (0xC1#8).getLsbD (7 - j) = r.kRx := by
  refine ⟨_, reachable_run 8 (eightSubmits_reachable .lsbOut) rfl, rfl, rfl, rfl, fun j hj => ?_⟩
  interval_cases j <;> exact ⟨_, rfl, rfl, rfl⟩

theorem witness_RxStaysExactlyAhead : isSessionReset .submit = false ∧
    ((Session.fresh 0xB33C87E3#32).desynced .lsbOut 3).RxAhead .lsbOut 3 ∧
    ((Session.fresh 0#32).desynced .msbOut 10).RxAhead .msbOut 10 :=
  ⟨rfl, ⟨rfl, rfl, rfl⟩, ⟨rfl, rfl, rfl⟩⟩

/-- A state whose ports are defined, with one record, one output and full and empty history bounds met. -/
def onePulse : State := { State.reset with
  gen := State.reset.gen.step .lsbOut, session := (Session.fresh 0#32).afterPulse .lsbOut }

theorem witness_ObservationPortsShowState : onePulse.responsePorts.cmdReady = true ∧
    (onePulse.select .gen).lastOut = some true ∧ (onePulse.select .gen).lastFb = some false ∧
    (onePulse.select .tx).hist.length ≤ 64 ∧
    (∃ r, onePulse.session.pulses[0]? = some r ∧ 0 < onePulse.session.cursor.val) ∧
    onePulse.session.cursor.val ≤ 1 ∧ onePulse.session.cursor.val ≤ 7 :=
  ⟨rfl, rfl, rfl, by decide, ⟨_, rfl, by decide⟩, by decide, by decide⟩

theorem witness_PeekReadsRegister : onePulse.responsePorts.cmdReady = true := rfl

theorem witness_AssemblerExpansions : 2 ^ 32 ≤ 4294967296 ∧ 2 ^ 8 ≤ 256 ∧ (3 ≤ 3 ∧ 3 ≤ 10) ∧ (3 ≤ 10 ∧ 10 ≤ 10) ∧
    (2 < 3 ∨ 10 < 2) ∧ (11 < 3 ∨ 10 < 11) := by decide

end Sys2Proof.Tests
end

section
/-! What every step keeps: the block's invariant, in every reachable state, and the configuration
(spec/10_state.md R37, R38, R42). -/

namespace Sys2Proof.Machine

/-- Sampling the pins touches no field the invariant speaks of. -/
theorem State.Inv.sample {s : State} (hi : s.Inv) : s.sample.Inv := ⟨hi.gen_replayed, hi.session_inv⟩

/-- The reset pin leaves a state that meets the invariant, whatever the state was: R180. -/
theorem resetBlock_inv (s : State) : (resetBlock s).Inv := ⟨rfl, Session.Inv.fresh _ _⟩

/-- The invariant of a state whose generator and session a command has replaced. -/
theorem Effect.inv_updated {s : State} {g : Generator} {S : Session} (he : Effect s g S) (hi : s.Inv)
    (r : Option Response) : (((s.setGen g).setSession S).setRsp r).Inv :=
  have ⟨hg, hS⟩ := he.inv hi
  ⟨hg, hS⟩

theorem State.Inv.step {s t : State} (hi : s.Inv) (h : step s = .next t) : t.Inv := by
  obtain ⟨g, S, r, he, hs⟩ | hs := step_cases s
  · obtain rfl : _ = t := Host.Outcome.next.inj (hs.symm.trans h)
    exact he.inv_updated hi.sample r
  · obtain rfl : _ = t := Host.Outcome.next.inj (hs.symm.trans h)
    exact resetBlock_inv s.sample

theorem State.reset_inv (o : Orient) : State.Inv { State.reset with orient := o } :=
  ⟨rfl, Session.Inv.fresh o Config.defaultSeed⟩

/-- The invariant holds at reset, the host's coming inputs are no part of it, and every step keeps it. -/
theorem Reachable.inv {s : State} (hs : Reachable s) : s.Inv := by
  induction hs with
  | reset o => exact State.reset_inv o
  | host s xs _ ih => exact ⟨ih.gen_replayed, ih.session_inv⟩
  | step s t _ h ih => exact ih.step h

theorem exec_keeps_configuration (i : Instr) (s : State) :
    ∃ t, exec i s = .next t ∧ t.orient = s.orient ∧ t.pins = s.pins ∧ t.inputs = s.inputs ∧ t.tick = s.tick := by
  obtain ⟨g, S, r, -, h⟩ := exec_cases i s
  exact ⟨_, h, rfl, rfl, rfl, rfl⟩

theorem step_keeps_orient (s : State) : ∃ t, step s = .next t ∧ t.orient = s.orient := by
  obtain ⟨g, S, r, -, h⟩ | h := step_cases s
  · exact ⟨_, h, rfl⟩
  · exact ⟨_, h, rfl⟩

/-- Settles O42: `step_cases` says what a step can do, and each effect keeps the invariant. -/
theorem stepKeepsInvariant : Obligations.StepKeepsInvariant := fun _ _ hi h => hi.step h

/-- Settles O40, from what a command and a step can answer. -/
theorem commandsKeepConfiguration : Obligations.CommandsKeepConfiguration :=
  ⟨exec_keeps_configuration, step_keeps_orient⟩

/-- Settles O43: the parts of the session's invariant that speak of the current byte. -/
theorem reachableBytesArePositional : Obligations.ReachableBytesArePositional := by
  intro s hs
  have hi := hs.inv.session_inv
  refine ⟨hi.pulse_count, fun j r hr => ?_, fun j hc hj => hi.rest_clear j hc (Nat.lt_succ_of_le hj)⟩
  have hf := hi.records_fit j r hr
  exact ⟨hf.index_eq, hf.accP_bit, hf.accE_bit, hf.accD_bit, hf.inp_bit⟩

/-- Settles O44, from the invariant's clause on synchrony. -/
theorem reachableSyncedGeneratorsEqual : Obligations.ReachableSyncedGeneratorsEqual :=
  fun _ hs hsync => (hs.inv.session_inv.synced_eq hsync).symm

/-- Settles O10: R47's table is `Generator.reset` and `Session.reset`, and the pins at reset are idle. -/
theorem resetStateValues : Obligations.ResetStateValues :=
  ⟨rfl, rfl, rfl, rfl, rfl, rfl, rfl, rfl, rfl, rfl, rfl, rfl, rfl, rfl⟩

/-- Settles O41: the session at reset is a fresh one, in either orientation. -/
theorem resetMeetsInvariant : Obligations.ResetMeetsInvariant := State.reset_inv

end Sys2Proof.Machine
end

section
/-! What the packed ports hold, bit by bit (spec/10_state.md R34, R45). -/

namespace Sys2Proof.Machine

/-- The three index bits come first, so reading them back gives the index: R34. -/
theorem PulseRecord.pack_index (r : PulseRecord) : (r.pack.extractLsb' 0 3).toNat = r.index.val := by
  have h : r.pack.extractLsb' 0 3 = BitVec.ofNat 3 r.index.val := BitVec.extractLsb'_append_eq_right
  rw [h, BitVec.toNat_ofNat, Nat.mod_eq_of_lt r.index.isLt]

/-- Bit `i + 3` of a packed record is the `i`-th of its six flags, `p` first, and 0 above them: R34. -/
theorem PulseRecord.pack_flag (r : PulseRecord) (i : Nat) :
    r.pack.getLsbD (i + 3) = [r.p, r.kTx, r.e, r.kRx, r.d, r.matched].getD i false := by
  by_cases hi : i < 6
  · simp only [PulseRecord.pack, BitVec.getLsbD_append]
    interval_cases i <;> simp
  · rw [BitVec.getLsbD_of_ge _ _ (by omega), List.getD_eq_default _ _ (by simpa using hi)]

theorem packHist_bit (h : List Bit) {k : Nat} (hk : k < 64) : (packHist h).getLsbD k = h.getD k false := by
  simp [packHist, hk, BitVec.getLsbD_ofBoolListLE]

theorem packPulses_cons_head (r : PulseRecord) (rs : List PulseRecord) :
    (packPulses (r :: rs)).extractLsb' 0 9 = r.pack := by
  apply BitVec.eq_of_getLsbD_eq
  intro i hi
  simp [packPulses, hi, show i < 72 by omega]

/-- The records behind the first stand nine bits higher. -/
theorem packPulses_cons_tail (r : PulseRecord) (rs : List PulseRecord) {j : Nat} (hj : j < 7) :
    (packPulses (r :: rs)).extractLsb' (9 * (j + 1)) 9 = (packPulses rs).extractLsb' (9 * j) 9 := by
  apply BitVec.eq_of_getLsbD_eq
  intro i hi
  have hr : r.pack.getLsbD (9 * (j + 1) + i) = false := BitVec.getLsbD_of_ge _ _ (by omega)
  simp [packPulses, hi, hr, show 9 * (j + 1) + i < 72 by omega, show 9 * j + i < 72 by omega, show ¬ 9 * (j + 1) + i < 9 by omega,
    show 9 * (j + 1) + i - 9 = 9 * j + i by omega]

/-- Bits [9j+8 : 9j] hold record `j`, and 0 beyond the last: R45. -/
theorem packPulses_record (rs : List PulseRecord) {j : Nat} (hj : j < 8) :
    (packPulses rs).extractLsb' (9 * j) 9 = (rs[j]?.map PulseRecord.pack).getD 0#9 := by
  induction rs generalizing j with
  | nil => simp [packPulses]
  | cons r rs ih =>
    cases j with
    | zero => simpa using packPulses_cons_head r rs
    | succ j => rw [packPulses_cons_tail r rs (by omega), ih (by omega), List.getElem?_cons_succ]

theorem Phase.code_ne_three (p : Phase) : p.code ≠ 3#2 := by cases p <;> decide

section DefinedGeneratorPorts
variable {s : State} {sel : GenSel} (w : Nat)

theorem State.definedGeneratorPorts_out {b : Bit} (h : (s.select sel).lastOut = some b) :
    (s.definedGeneratorPorts w sel).out = b := by
  simp [State.definedGeneratorPorts, h]

theorem State.definedGeneratorPorts_fb {b : Bit} (h : (s.select sel).lastFb = some b) :
    (s.definedGeneratorPorts w sel).fb = b := by
  simp [State.definedGeneratorPorts, h]

/-- A history within its capacity has a length that fits the 7-bit port. -/
theorem State.definedGeneratorPorts_histLen (h : (s.select sel).hist.length ≤ 64) :
    (s.definedGeneratorPorts w sel).histLen.toNat = (s.select sel).hist.length := by
  simp only [State.definedGeneratorPorts, BitVec.toNat_ofNat]
  omega

end DefinedGeneratorPorts

section DefinedSessionPorts
variable (s : State)

theorem State.definedSessionPorts_cursor : s.definedSessionPorts.cursor.toNat = s.session.cursor.val := by
  have := s.session.cursor.isLt
  simp only [State.definedSessionPorts, BitVec.toNat_ofNat]
  omega

/-- The port shows the records below the cursor and 0 from there on: R45. -/
theorem State.definedSessionPorts_record {j : Nat} (hj : j < 8) :
    s.definedSessionPorts.pulses.extractLsb' (9 * j) 9 =
      if j < s.session.cursor.val then (s.session.pulses[j]?.map PulseRecord.pack).getD 0#9 else 0#9 := by
  have h : s.definedSessionPorts.pulses = packPulses (s.session.pulses.take s.session.cursor.val) := rfl
  rw [h, packPulses_record _ hj, List.getElem?_take]
  split <;> rfl

end DefinedSessionPorts

theorem Phase.code_eq (p : Phase) : p.code = match p with
    | .awaitingInput => 0#2
    | .transmitting => 1#2
    | .byteComplete => 2#2 := by
  cases p <;> rfl

/-- Settles O31: the index is the low three bits, each flag one bit above them. -/
theorem recordPacking : Obligations.RecordPacking := fun r =>
  ⟨r.pack_index, r.pack_flag 0, r.pack_flag 1, r.pack_flag 2, r.pack_flag 3, r.pack_flag 4, r.pack_flag 5⟩

/-- Settles O50: while `cmd_ready` is 1 the ports are the defined ones, and each packs what it stands for. -/
theorem observationPortsShowState : Obligations.ObservationPortsShowState := by
  intro w s hready
  rw [State.responsePorts_cmdReady] at hready
  simp only [State.generatorPorts_of_ready hready, State.sessionPorts_of_ready hready]
  refine ⟨fun sel => ⟨rfl, BitVec.toNat_ofNat _ _, rfl, fun _ => State.definedGeneratorPorts_out w, rfl,
      fun _ => State.definedGeneratorPorts_fb w, fun hlen =>
        ⟨State.definedGeneratorPorts_histLen w hlen, fun _ hk => packHist_bit _ hk⟩⟩,
    s.definedSessionPorts_cursor, ?phase, Phase.code_ne_three _, rfl, rfl, rfl, rfl, rfl, ?records, ?beyond⟩
  case phase => exact Phase.code_eq _
  case records =>
    intro j r hj hr
    have hj8 : j < 8 := by have := s.session.cursor.isLt; omega
    rw [s.definedSessionPorts_record hj8, if_pos hj, hr]
    rfl
  case beyond =>
    intro j hc hj
    rw [s.definedSessionPorts_record hj, if_neg (Nat.not_lt.mpr hc)]

end Sys2Proof.Machine
end

section
/-! The encoder and the decoder, and the opcode table that decides decoding (spec/30_encoding.md R70 to R75). -/

namespace Sys2Proof

section DecodeParts
variable {zero : Bool} {g : BitVec 2} {i j : Instr}

theorem whenUnusedZero_eq_ok : whenUnusedZero zero i = .ok j ↔ zero = true ∧ i = j := by
  cases zero <;> simp [whenUnusedZero]

/-- PEEK has no target for `G` = 3: R74. -/
theorem of_peekOf_eq_ok (h : peekOf g zero = .ok j) : zero = true ∧ g ≠ 3#2 := by
  refine ⟨?_, by rintro rfl; cases h⟩
  unfold peekOf at h
  split at h
  · exact (whenUnusedZero_eq_ok.mp h).1
  · exact (whenUnusedZero_eq_ok.mp h).1
  · exact (whenUnusedZero_eq_ok.mp h).1
  · cases h

end DecodeParts

/-- R70, R71, R73, R75: the decoder reads each field back as the encoder laid it down. -/
theorem decode_encode (i : Instr) : decode (encode i) = .ok i := by
  cases i with
  | gseed seed => simp [encode, decode, whenUnusedZero]
  | setin d => simp [encode, decode, whenUnusedZero]
  | sseed seed => simp [encode, decode, whenUnusedZero]
  | gstep | greset | peekGen | peekTx | peekRx | submit | complete | desync | sreset => rfl

theorem encode_injective : Function.Injective encode := fun i j h => by
  have hd : decode (encode i) = decode (encode j) := congrArg decode h
  simpa only [decode_encode, Except.ok.injEq] using hd

/-- A word with `RSV` = 0 is made of its four other fields. -/
theorem Field.assemble_fields {w : CmdWord} (h : Field.rsv w = 0#2) :
    Field.assemble (Field.op w) (Field.g w) (Field.d w) (Field.seed w) = w :=
  Field.ext (by simp) (by simp) (by simp [h]) (by simp) (by simp)

/-- The causes of an illegal word, R74, as its fields show them. -/
def Field.Illegal (w : CmdWord) : Prop :=
  Field.op w = 0x0#4 ∨ 0xB#4 ≤ Field.op w ∨ Field.rsv w ≠ 0#2 ∨ (Field.op w = 0x4#4 ∧ Field.g w = 3#2) ∨
    (Field.op w ≠ 0x4#4 ∧ Field.g w ≠ 0#2) ∨ (Field.op w ≠ 0x5#4 ∧ Field.d w ≠ 0#8) ∨
    (Field.op w ≠ 0x3#4 ∧ Field.op w ≠ 0xA#4 ∧ Field.seed w ≠ 0#32)

theorem Field.op_eq_ofNat {w : CmdWord} {n : Nat} (h : (Field.op w).toNat = n) : Field.op w = BitVec.ofNat 4 n := by
  rw [← h, BitVec.ofNat_toNat, BitVec.setWidth_eq]

/-- Each branch of the decoder checks the fields its `OP` does not use. -/
theorem Field.not_illegal_of_decode {w : CmdWord} {i : Instr} (h : decode w = .ok i) : ¬ Field.Illegal w := by
  unfold decode at h
  split at h
  · cases h
  · rename_i hrsv
    split at h
    case h_4 hop =>
      obtain ⟨hz, hg⟩ := of_peekOf_eq_ok h
      simp only [Bool.and_eq_true, beq_iff_eq] at hz
      simp [Field.Illegal, Field.op_eq_ofNat hop, hrsv, hg, hz]
    case h_11 => cases h
    all_goals
      rename_i hop
      have hz := (whenUnusedZero_eq_ok.mp h).1
      simp only [Bool.and_eq_true, beq_iff_eq] at hz
      simp [Field.Illegal, Field.op_eq_ofNat hop, hrsv, hz]

theorem defined_opcodes {op : BitVec 4} (h0 : op ≠ 0x0#4) (hB : ¬ 0xB#4 ≤ op) :
    op = 0x1#4 ∨ op = 0x2#4 ∨ op = 0x3#4 ∨ op = 0x4#4 ∨ op = 0x5#4 ∨ op = 0x6#4 ∨ op = 0x7#4 ∨ op = 0x8#4 ∨
      op = 0x9#4 ∨ op = 0xA#4 := by
  revert op
  decide

/-- PEEK's three targets: R73. -/
theorem exists_encode_peek {g : BitVec 2} (h : g ≠ 3#2) : ∃ i, encode i = Field.assemble 0x4#4 g 0#8 0#32 := by
  have hg : g = 0#2 ∨ g = 1#2 ∨ g = 2#2 := by revert g; decide
  obtain rfl | rfl | rfl := hg
  exacts [⟨.peekGen, rfl⟩, ⟨.peekTx, rfl⟩, ⟨.peekRx, rfl⟩]

/-- The opcode map of R71, read from the words to the commands. -/
theorem exists_encode_of_not_illegal {w : CmdWord} (h : ¬ Field.Illegal w) : ∃ i, encode i = w := by
  simp only [Field.Illegal, not_or, not_and, not_not, ne_eq] at h
  obtain ⟨h0, hB, hrsv, hpeek, hg, hd, hseed⟩ := h
  have hw := Field.assemble_fields hrsv
  obtain hop | hop | hop | hop | hop | hop | hop | hop | hop | hop := defined_opcodes h0 hB
  all_goals
    simp only [hop, BitVec.reduceEq, not_true_eq_false, not_false_eq_true, forall_const, IsEmpty.forall_iff]
      at hw hpeek hg hd hseed
    simp only [*] at hw
  case inr.inr.inr.inl => exact hw ▸ exists_encode_peek hpeek
  exacts [⟨.gstep, hw⟩, ⟨.greset, hw⟩, ⟨.gseed _, hw⟩, ⟨.setin _, hw⟩, ⟨.submit, hw⟩, ⟨.complete, hw⟩, ⟨.desync, hw⟩,
    ⟨.sreset, hw⟩, ⟨.sseed _, hw⟩]

theorem decode_eq_ok_iff {w : CmdWord} {i : Instr} : decode w = .ok i ↔ encode i = w := by
  constructor
  · intro h
    obtain ⟨j, hj⟩ := exists_encode_of_not_illegal (Field.not_illegal_of_decode h)
    rw [← hj, decode_encode, Except.ok.injEq] at h
    rw [← h, hj]
  · rintro rfl
    exact decode_encode i

theorem forall_decode_ne_iff {w : CmdWord} : (∀ i, decode w ≠ .ok i) ↔ Field.Illegal w := by
  constructor
  · intro h
    by_contra hlegal
    obtain ⟨i, hi⟩ := exists_encode_of_not_illegal hlegal
    exact h i (decode_eq_ok_iff.mpr hi)
  · exact fun h i hi => Field.not_illegal_of_decode hi h

theorem tableWord_toNat (w : CmdWord) : tableWord 48 w.toNat = w := by
  rw [tableWord, Nat.mod_eq_of_lt w.isLt, BitVec.ofNat_toNat, BitVec.setWidth_eq]

section Table

theorem Instr.row_mem (i : Instr) : i.row ∈ opcodeRows := by
  cases i with
  | gstep | greset | gseed | peekGen | peekTx | peekRx | setin | submit | complete | desync | sreset | sseed =>
    simp [opcodeRows, Instr.row]

theorem encode_accepted (i : Instr) : i.row.accepts (encode i) = true := by
  cases i with
  | gseed seed => exact Laws.EncodesInItsRow.gseed seed
  | setin d => exact Laws.EncodesInItsRow.setin d
  | sseed seed => exact Laws.EncodesInItsRow.sseed seed
  | gstep | greset | peekGen | peekTx | peekRx | submit | complete | desync | sreset => rfl

variable {row : OpcodeRow} {w : CmdWord}

/-- A row whose mask covers every bit accepts one word only. -/
theorem OpcodeRow.eq_of_accepts (hmask : row.mask = 0xFFFFFFFFFFFF#48) (h : row.accepts w = true) : row.bits = w := by
  rw [OpcodeRow.accepts, beq_iff_eq, hmask] at h
  rw [← h]
  exact BitVec.and_allOnes

section Row
variable {i j : Instr} (hj : j.row = i.row) (h : i.row.accepts w = true)
include hj h

/-- On the bits that a row's mask covers, a word it accepts is the word of any command of the row. -/
theorem encode_bits_eq_of_accepts {mask : CmdWord} (hmask : i.row.mask = mask) {start len : Nat}
    (hcovers : mask.extractLsb' start len = BitVec.allOnes len) :
    (encode j).extractLsb' start len = w.extractLsb' start len := by
  have h' := encode_accepted j
  rw [hj, OpcodeRow.accepts, beq_iff_eq, hmask] at h'
  rw [OpcodeRow.accepts, beq_iff_eq, hmask] at h
  have h := congrArg (·.extractLsb' start len) (h'.trans h.symm)
  simpa only [BitVec.extractLsb'_and, hcovers, BitVec.and_allOnes] using h

/-- A mask that leaves `SEED` open covers the other fields. -/
theorem encode_eq_of_seed_eq (hmask : i.row.mask = 0x00000000FFFF#48) (hseed : Field.seed (encode j) = Field.seed w) :
    encode j = w :=
  have covered {start len : Nat} := @encode_bits_eq_of_accepts _ _ _ hj h _ hmask start len
  Field.ext (covered (by decide)) (covered (by decide)) (covered (by decide)) (covered (by decide)) hseed

/-- A mask that leaves `D` open covers the other fields. -/
theorem encode_eq_of_d_eq (hmask : i.row.mask = 0xFFFFFFFF00FF#48) (hd : Field.d (encode j) = Field.d w) :
    encode j = w :=
  have covered {start len : Nat} := @encode_bits_eq_of_accepts _ _ _ hj h _ hmask start len
  Field.ext (covered (by decide)) (covered (by decide)) (covered (by decide)) hd (covered (by decide))

end Row

/-- A row accepts no words but those of its commands: what its mask leaves open is an operand. -/
theorem exists_encode_of_accepts {i : Instr} (h : i.row.accepts w = true) : ∃ j, j.row = i.row ∧ encode j = w := by
  cases i with
  | gseed => exact ⟨.gseed (Field.seed w), rfl, encode_eq_of_seed_eq rfl h rfl (Field.seed_assemble ..)⟩
  | setin => exact ⟨.setin (Field.d w), rfl, encode_eq_of_d_eq rfl h rfl (Field.d_assemble ..)⟩
  | sseed => exact ⟨.sseed (Field.seed w), rfl, encode_eq_of_seed_eq rfl h rfl (Field.seed_assemble ..)⟩
  | gstep | greset | peekGen | peekTx | peekRx | submit | complete | desync | sreset =>
    exact ⟨_, rfl, OpcodeRow.eq_of_accepts rfl h⟩

theorem legalWord_iff : legalWord w = true ↔ ∃ i, encode i = w := by
  rw [legalWord, List.any_eq_true]
  constructor
  · rintro ⟨row, hrow, hacc⟩
    obtain ⟨i, -, rfl⟩ := List.mem_map.mp hrow
    obtain ⟨j, -, hj⟩ := exists_encode_of_accepts hacc
    exact ⟨j, hj⟩
  · rintro ⟨i, rfl⟩
    exact ⟨i.row, i.row_mem, encode_accepted i⟩

theorem Instr.row_eq_of_accepts {i i' : Instr} (h : i.row.accepts w = true) (h' : i'.row.accepts w = true) :
    i.row = i'.row := by
  obtain ⟨j, hj, hw⟩ := exists_encode_of_accepts h
  obtain ⟨j', hj', hw'⟩ := exists_encode_of_accepts h'
  rw [← hj, ← hj', encode_injective (hw.trans hw'.symm)]

end Table

/-- Settles O2: `decode_encode`, from the fields of an assembled word. -/
theorem decodeOfEncode : Obligations.DecodeOfEncode := decode_encode

/-- Settles O3: a row accepts the words of its own commands and no others, and a word has one command. -/
theorem tableDecidesDecoding : Obligations.TableDecidesDecoding := by
  refine ⟨fun w => ?_, fun w i h => ?_, fun w r hr r' hr' h h' => ?_⟩
  · simp only [decode_eq_ok_iff, legalWord_iff]
  · obtain rfl := decode_eq_ok_iff.mp h
    exact ⟨encode_accepted i, rfl⟩
  · obtain ⟨i, -, rfl⟩ := List.mem_map.mp hr
    obtain ⟨i', -, rfl⟩ := List.mem_map.mp hr'
    exact Instr.row_eq_of_accepts h h'

/-- Settles O1: the decoder runs on each of the words. -/
theorem specWordsDecode : Obligations.SpecWordsDecode := by
  refine ⟨rfl, rfl, rfl, rfl, rfl, rfl, rfl, rfl, rfl, rfl, rfl, rfl, fun w hw => ?_⟩
  fin_cases hw <;> rfl

end Sys2Proof
end

section
/-! What a command answers and what a step does with the pins it samples (spec/30_encoding.md R74, R76 to R81). -/

namespace Sys2Proof.Machine

section Step
variable {s : State}

theorem step_of_resets (h : s.nextPins.resets = true) : step s = .next (resetBlock s.sample) := by
  simp [step, serve, h]

theorem step_of_idle (hr : s.nextPins.resets = false) (hv : s.nextPins.cmdValid = false) :
    step s = .next s.sample := by
  simp [step, serve, hr, hv]

theorem step_of_decode {i : Instr} (hr : s.nextPins.resets = false) (hv : s.nextPins.cmdValid = true)
    (hd : decode s.nextPins.cmdWord = .ok i) : step s = exec i s.sample := by
  simp [step, serve, hr, hv, hd]

theorem step_of_illegal (hr : s.nextPins.resets = false) (hv : s.nextPins.cmdValid = true)
    (hd : ∀ i, decode s.nextPins.cmdWord ≠ .ok i) : step s = reject s.sample .rejIllegal := by
  cases he : decode s.nextPins.cmdWord with
  | ok i => exact absurd he (hd i)
  | error e => simp [step, serve, hr, hv, he]

/-- An edge either ends without a response, or runs the command its word decodes to, or rejects an illegal word. -/
theorem step_branches (s : State) :
    (∃ t, step s = .next t ∧ t.rsp = none) ∨ (∃ i, step s = exec i s.sample) ∨
      step s = reject s.sample .rejIllegal := by
  cases hr : s.nextPins.resets with
  | true => exact .inl ⟨_, step_of_resets hr, rfl⟩
  | false =>
    cases hv : s.nextPins.cmdValid with
    | false => exact .inl ⟨_, step_of_idle hr hv, rfl⟩
    | true =>
      by_cases hd : ∃ i, decode s.nextPins.cmdWord = .ok i
      · exact .inr (.inl (hd.imp fun i => step_of_decode hr hv))
      · exact .inr (.inr (step_of_illegal hr hv (not_exists.mp hd)))

end Step

/-- A command is accepted, with its data, or answers `REJ_STATE` and does nothing: R160, R161. -/
theorem exec_responds_or_rejects (i : Instr) (s : State) :
    (∃ t data, exec i s = respond t data) ∨ exec i s = reject s .rejState := by
  cases i with
  | setin d =>
    rw [exec, execSetin]
    split
    · exact .inr rfl
    · exact .inl ⟨_, _, rfl⟩
  | submit =>
    rw [exec, execSubmit]
    split
    · exact .inr rfl
    · exact .inl ⟨_, _, rfl⟩
  | complete =>
    rw [exec, execComplete]
    split
    · exact .inr rfl
    · exact .inl ⟨_, _, rfl⟩
  | desync =>
    rw [exec, execDesync]
    split
    · exact .inl ⟨_, _, rfl⟩
    · exact .inr rfl
  | gstep | greset | gseed | peekGen | peekTx | peekRx | sreset | sseed => exact .inl ⟨_, _, rfl⟩

/-- The response of a command: `OK`, or `REJ_STATE` with data 0. -/
theorem exec_response (i : Instr) (s : State) :
    ∃ t r, exec i s = .next t ∧ t.rsp = some r ∧ (r.status = .ok ∨ r = ⟨.rejState, 0#48⟩) := by
  obtain ⟨t, data, h⟩ | h := exec_responds_or_rejects i s
  · exact ⟨_, _, h, rfl, .inl rfl⟩
  · exact ⟨_, _, h, rfl, .inr rfl⟩

theorem exec_response_of_next {i : Instr} {s t : State} {r : Response} (h : exec i s = .next t) (hr : t.rsp = some r) :
    r.status = .ok ∨ r = ⟨.rejState, 0#48⟩ := by
  obtain ⟨t', r', h', hr', hcases⟩ := exec_response i s
  obtain rfl : t' = t := Host.Outcome.next.inj (h'.symm.trans h)
  obtain rfl : r' = r := Option.some.inj (hr'.symm.trans hr)
  exact hcases

theorem Status.code_ne_three (c : Status) : c.code ≠ 3#2 := by cases c <;> decide

/-- The ports of a valid response: R81. -/
theorem State.responsePorts_of_rsp {s : State} {r : Response} (h : s.rsp = some r) :
    s.responsePorts = ⟨s.cmdReady, true, r.status.code, r.data⟩ := by
  simp [State.responsePorts, h]

/-- A taken word has a response, whether it is legal or not. -/
theorem step_response {s : State} (hr : s.nextPins.resets = false) (hv : s.nextPins.cmdValid = true) :
    ∃ t r, step s = .next t ∧ t.rsp = some r ∧ t.cmdReady = true := by
  by_cases hd : ∃ i, decode s.nextPins.cmdWord = .ok i
  · obtain ⟨i, hd⟩ := hd
    obtain ⟨t, r, h, hrsp, -⟩ := exec_response i s.sample
    obtain ⟨t', h', -, hpins, -, -⟩ := exec_keeps_configuration i s.sample
    obtain rfl : t' = t := Host.Outcome.next.inj (h'.symm.trans h)
    exact ⟨t', r, (step_of_decode hr hv hd).trans h, hrsp, by simp [State.cmdReady, hpins, hr]⟩
  · exact ⟨_, _, step_of_illegal hr hv (not_exists.mp hd), rfl, by simp [State.cmdReady, hr]⟩

section Data
variable (reg : Bits32) (out fb : Bit)

theorem packTriple_reg : (packTriple reg out fb).extractLsb' 0 32 = reg :=
  BitVec.extractLsb'_append_eq_right

theorem packTriple_bit (i : Nat) : (packTriple reg out fb).getLsbD (32 + i) = [out, fb].getD i false := by
  simp only [packTriple, BitVec.getLsbD_append]
  rcases i with _ | _ | i
  · simp
  · simp
  · simp [show ¬ 32 + (i + 1 + 1) < 32 by omega]

theorem packTriple_rest : (packTriple reg out fb).extractLsb' 34 14 = 0#14 := by
  apply BitVec.eq_of_getLsbD_eq
  intro i hi
  rw [BitVec.getLsbD_extractLsb', show 34 + i = 32 + (i + 2) by omega, packTriple_bit]
  simp

/-- A value that fills the low bits of the response data. -/
theorem extractLsb'_setWidth_low {n : Nat} (x : BitVec n) (h : n ≤ 48) : (x.setWidth 48).extractLsb' 0 n = x := by
  apply BitVec.eq_of_getLsbD_eq
  intro i hi
  simp [hi, show i < 48 by omega]

theorem extractLsb'_setWidth_high {n : Nat} (x : BitVec n) (len : Nat) : (x.setWidth 48).extractLsb' n len = 0#len := by
  apply BitVec.eq_of_getLsbD_eq
  intro i hi
  simp

/-- The number of extra clocks fills four bits: R152. -/
theorem draw_data (s : State) : ((BitVec.ofNat 48 s.draw).extractLsb' 0 4).toNat = s.draw ∧
    (BitVec.ofNat 48 s.draw).extractLsb' 4 44 = 0#44 := by
  obtain ⟨-, h10⟩ := draw_bounds s
  constructor
  · simp; omega
  · apply BitVec.eq_of_toNat_eq
    simp; omega

end Data

/-- Settles O4: R74's causes are those of the decoder, and a word that does not decode is rejected. -/
theorem illegalWordsRejected : Obligations.IllegalWordsRejected :=
  ⟨fun _ => forall_decode_ne_iff, fun _ => step_of_illegal⟩

/-- Settles O5: the branch of `serve` that runs a command, at the sampled state. -/
theorem stepRunsDecodedCommand : Obligations.StepRunsDecodedCommand := fun _ _ => step_of_decode

/-- Settles O6: the word laid down is the whole word of the command, and decodes to it. -/
theorem stepRunsPresentedWord : Obligations.StepRunsPresentedWord := by
  intro s i
  have hpins : (s.withFetchWord 48 (encode i).toNat).nextPins = .command (encode i) s.pins.desyncRnd := by
    rw [State.withFetchWord, State.nextPins_present, tableWord_toNat]
  rw [step_of_decode (i := i) (by rw [hpins]; rfl) (by rw [hpins]; rfl) (by rw [hpins]; exact decode_encode i),
    State.sample, hpins]
  rfl

/-- The data of a rejected word, illegal or not, is 0. -/
theorem data_of_rejected {s t : State} {r : Response} (h : step s = .next t) (hr : t.rsp = some r)
    (hrej : r.status ≠ .ok) : r.data = 0#48 := by
  obtain ⟨t', h', hnone⟩ | ⟨i, h'⟩ | h' := step_branches s
  · obtain rfl : t' = t := Host.Outcome.next.inj (h'.symm.trans h)
    simp [hnone] at hr
  · obtain hok | rfl := exec_response_of_next (h'.symm.trans h) hr
    · exact absurd hok hrej
    · rfl
  · obtain rfl := reject_eq_next.mp (h'.symm.trans h)
    obtain rfl := Option.some.inj hr
    rfl

/-- What an accepted command leaves and answers, for a statement about accepted commands only. -/
theorem respond_answers {P : State → Response → Prop} {s : State} {data : CmdWord}
    (h : P (s.setRsp (some ⟨.ok, data⟩)) ⟨.ok, data⟩) : ∃ t r, respond s data = .next t ∧ t.rsp = some r ∧
      (r.status ≠ .ok → r.data = 0#48) ∧ (r.status = .ok → P t r) :=
  ⟨_, _, rfl, rfl, fun hrej => absurd rfl hrej, fun _ => h⟩

theorem reject_answers {P : State → Response → Prop} {s : State} : ∃ t r, reject s .rejState = .next t ∧
    t.rsp = some r ∧ (r.status ≠ .ok → r.data = 0#48) ∧ (r.status = .ok → P t r) :=
  ⟨_, _, rfl, rfl, fun _ => rfl, nofun⟩

/-- Settles O16: each command either rejects, with data 0, or lays its data out in the fields of R78. -/
theorem responseDataLayout : Obligations.ResponseDataLayout := by
  refine ⟨fun _ _ _ => data_of_rejected, fun i s => ?_⟩
  cases i with
  | gstep =>
    exact respond_answers ⟨packTriple_reg .., congrArg some (packTriple_bit _ _ _ 0),
      congrArg some (packTriple_bit _ _ _ 1), packTriple_rest ..⟩
  | peekGen | peekTx | peekRx =>
    exact respond_answers ⟨extractLsb'_setWidth_low _ (by decide), extractLsb'_setWidth_high ..⟩
  | greset | gseed | sreset | sseed => exact respond_answers rfl
  | setin d =>
    rw [exec, execSetin]
    split
    · exact reject_answers
    · exact respond_answers rfl
  | submit =>
    rw [exec, execSubmit]
    split
    · exact reject_answers
    · exact respond_answers ⟨⟨_, Session.afterPulse_pulses .., extractLsb'_setWidth_low _ (by decide)⟩,
        extractLsb'_setWidth_high ..⟩
  | complete =>
    rw [exec, execComplete]
    split
    · exact reject_answers
    · exact respond_answers rfl
  | desync =>
    rw [exec, execDesync]
    split
    · obtain ⟨hlow, hhigh⟩ := draw_data s
      obtain ⟨h3, h10⟩ := draw_bounds s
      exact respond_answers ⟨by simp [hlow], h3.trans_eq hlow.symm, hlow.trans_le h10, hhigh⟩
    · exact reject_answers

/-- Settles O15: no status has code 3, and a command answers `OK` or `REJ_STATE`. -/
theorem responseStatusCodes : Obligations.ResponseStatusCodes := by
  refine ⟨rfl, rfl, rfl, fun s t _ hvalid => ?_, fun i s t r h hr => ?_⟩
  · obtain ⟨r, hr⟩ := Option.isSome_iff_exists.mp hvalid
    rw [State.responsePorts_of_rsp hr]
    exact r.status.code_ne_three
  · obtain hok | rfl := exec_response_of_next h hr
    · rw [hok]; decide
    · decide

/-- Settles O17: a taken word leaves a response, an edge without a word leaves none. -/
theorem responseValidForOneClock : Obligations.ResponseValidForOneClock := by
  refine ⟨fun s hr hv => ?_, fun s hv => ?_⟩
  · obtain ⟨t, r, hstep, hrsp, hready⟩ := step_response hr hv
    exact ⟨t, r, hstep, hrsp, by rw [State.responsePorts_of_rsp hrsp, hready]⟩
  · cases hr : s.nextPins.resets with
    | true => exact ⟨_, step_of_resets hr, rfl⟩
    | false => exact ⟨_, step_of_idle hr hv, rfl⟩

end Sys2Proof.Machine
end

section
/-! The assembler's immediates and the expansion of its lines (spec/30_encoding.md R79, R80). -/

namespace Sys2Proof.Machine

theorem imm32_toNat (v : Bits32) : imm32 v.toNat = .ok v := by
  rw [imm32, if_pos v.isLt, BitVec.ofNat_toNat, BitVec.setWidth_eq]

theorem imm32_of_ge {n : Nat} (h : 2 ^ 32 ≤ n) : imm32 n = .error .outOfRange := if_neg (Nat.not_lt.mpr h)

theorem imm8_toNat (v : Byte) : imm8 v.toNat = .ok v := by
  rw [imm8, if_pos v.isLt, BitVec.ofNat_toNat, BitVec.setWidth_eq]

theorem imm8_of_ge {n : Nat} (h : 2 ^ 8 ≤ n) : imm8 n = .error .outOfRange := if_neg (Nat.not_lt.mpr h)

theorem recordedDraw_of_mem {n : Nat} (h3 : 3 ≤ n) (h10 : n ≤ 10) :
    recordedDraw n = .ok (BitVec.ofNat 3 (n - 3)) := if_pos ⟨h3, h10⟩

theorem recordedDraw_of_not_mem {n : Nat} (h : n < 3 ∨ 10 < n) : recordedDraw n = .error .outOfRange :=
  if_neg (by simp only [Config.desyncMin, Config.desyncMax]; omega)

/-- Settles O51: a line's expansion is the table's, once its immediate is read or refused. -/
theorem assemblerExpansions : Obligations.AssemblerExpansions := by
  refine ⟨rfl, rfl, fun v => ?_, fun v => ?_, fun v => ?_, fun n hn => ?_, fun n hn => ?_, fun n h3 h10 => ?_,
    fun n hn => ?_⟩
  · rw [AsmLine.expand, imm32_toNat]; rfl
  · rw [AsmLine.expand, imm8_toNat]; rfl
  · rw [AsmLine.expand, imm8_toNat]; rfl
  · simp only [AsmLine.expand, imm32_of_ge hn, Except.map, and_self]
  · simp only [AsmLine.expand, imm8_of_ge hn, Except.map, and_self]
  · refine ⟨BitVec.ofNat 3 (n - 3), by rw [AsmLine.expand, recordedDraw_of_mem h3 h10]; rfl, ?_⟩
    rw [BitVec.toNat_ofNat]
    omega
  · rw [AsmLine.expand, recordedDraw_of_not_mem hn]; rfl

end Sys2Proof.Machine
end

section
/-! The register under steps: its bits counted from the output end, the outputs they become, and what a step forgets
(spec/40_generator.md R100 to R102, R114, R116 to R118). -/

namespace Sys2Proof.Machine

/-- Bit `j` of a register, counted from the output end: R101. -/
def bitFromOutput (o : Orient) (r : Bits32) (j : Nat) : Bit :=
  match o with
  | .lsbOut => r.getLsbD j
  | .msbOut => r.getLsbD (31 - j)

section Steps
variable (o : Orient) (r seed : Bits32)

theorem nextReg_msbOut_bit_zero : (nextReg .msbOut r).getLsbD 0 = feedback r := nextReg_msbOut_bit r 0

theorem nextReg_msbOut_bit_succ {i : Nat} (hi : i < 31) : (nextReg .msbOut r).getLsbD (i + 1) = r.getLsbD i := by
  rw [nextReg_msbOut_bit, if_neg (Nat.succ_ne_zero i), if_pos (by omega), Nat.add_sub_cancel]

theorem outputBit_eq_bitFromOutput : outputBit o r = bitFromOutput o r 0 := by cases o <;> rfl

/-- A step moves every bit one place toward the output end. -/
theorem bitFromOutput_nextReg {j : Nat} (hj : j < 31) :
    bitFromOutput o (nextReg o r) j = bitFromOutput o r (j + 1) := by
  cases o with
  | lsbOut => exact (nextReg_lsbOut_bit r j).trans (if_pos hj)
  | msbOut =>
    simp only [bitFromOutput]
    rw [show 31 - j = 31 - (j + 1) + 1 by omega, nextReg_msbOut_bit_succ _ (by omega)]

/-- The feedback bit enters at the vacated end: R101. -/
theorem bitFromOutput_nextReg_last : bitFromOutput o (nextReg o r) 31 = feedback r := by
  cases o with
  | lsbOut => exact nextReg_lsbOut_bit r 31
  | msbOut => exact nextReg_msbOut_bit_zero r

theorem bitFromOutput_nextRegs {n j : Nat} (h : j + n < 32) :
    bitFromOutput o (nextRegs o n r) j = bitFromOutput o r (j + n) := by
  induction n generalizing r with
  | zero => rfl
  | succ n ih => rw [nextRegs, ih _ (by omega), bitFromOutput_nextReg _ _ (by omega), Nat.add_assoc]

/-- After `k` steps the register holds the next 32 outputs, in order from the output end. -/
theorem outAt_add (k : Nat) {j : Nat} (hj : j < 32) :
    outAt o seed (k + j) = bitFromOutput o (nextRegs o k seed) j := by
  rw [outAt, nextRegs_add, outputBit_eq_bitFromOutput, bitFromOutput_nextRegs _ _ (by omega), Nat.zero_add]

/-- The feedback bit of a step is the output of the 32nd step after it. -/
theorem outAt_add_32 (k : Nat) : outAt o seed (k + 32) = feedback (nextRegs o k seed) := by
  rw [show k + 32 = k + 1 + 31 by omega, outAt_add _ _ _ (by decide), nextRegs_succ, bitFromOutput_nextReg_last]

@[simp] theorem outputBit_zero : outputBit o 0#32 = false := by cases o <;> rfl

@[simp] theorem nextRegs_zero_reg (n : Nat) : nextRegs o n 0#32 = 0#32 := by
  induction n with
  | zero => rfl
  | succ n ih => rw [nextRegs, nextReg_zero, ih]

end Steps

section Forgetting
variable {r r' : Bits32}

/-- No tap stands at bit 0: R100. -/
theorem feedback_eq_of_upper_eq (h : r.extractLsb' 1 31 = r'.extractLsb' 1 31) : feedback r = feedback r' := by
  have bit (i : Nat) (hi : i < 31) : r.getLsbD (i + 1) = r'.getLsbD (i + 1) := by
    simpa [hi, Nat.add_comm] using congrArg (BitVec.getLsbD · i) h
  rw [feedback_eq, feedback_eq, bit 0 (by decide), bit 4 (by decide), bit 5 (by decide), bit 30 (by decide)]

theorem nextReg_lsbOut_lower (r : Bits32) : (nextReg .lsbOut r).extractLsb' 0 31 = r.extractLsb' 1 31 :=
  BitVec.extractLsb'_append_eq_right

theorem nextReg_lsbOut_eq_iff :
    nextReg .lsbOut r = nextReg .lsbOut r' ↔ r.extractLsb' 1 31 = r'.extractLsb' 1 31 := by
  constructor
  · intro h
    rw [← nextReg_lsbOut_lower, h, nextReg_lsbOut_lower]
  · intro h
    rw [nextReg, nextReg, h, feedback_eq_of_upper_eq h]

/-- The successor shows the lower 31 bits and the feedback bit, and these give back bit 31, a tap. -/
theorem nextReg_msbOut_injective : Function.Injective (nextReg .msbOut) := by
  intro r r' h
  have lower (i : Nat) (hi : i < 31) : r.getLsbD i = r'.getLsbD i := by
    rw [← nextReg_msbOut_bit_succ r hi, h, nextReg_msbOut_bit_succ r' hi]
  have fb : feedback r = feedback r' := by
    rw [← nextReg_msbOut_bit_zero, h, nextReg_msbOut_bit_zero]
  have top : r.getLsbD 31 = r'.getLsbD 31 := by
    rw [feedback_eq, feedback_eq, lower 1 (by decide), lower 5 (by decide), lower 6 (by decide)] at fb
    exact Bool.xor_right_inj.mp fb
  apply BitVec.eq_of_getLsbD_eq
  intro i hi
  obtain hlt | rfl : i < 31 ∨ i = 31 := by omega
  · exact lower i hlt
  · exact top

end Forgetting

/-- Settles O20: before any step the register holds outputs 0 to 31, and output 32 is its feedback bit. -/
theorem firstOutputsAreSeedBits : Obligations.FirstOutputsAreSeedBits := by
  refine fun o seed => ⟨fun k hk => ?_, ?_⟩
  · have h := outAt_add o seed 0 hk
    rw [Nat.zero_add] at h
    cases o <;> exact h
  · exact outAt_add_32 o seed 0

/-- Settles O21: the registers 0 and 1 agree above bit 0, so both step to 0. -/
theorem lsbStepForgetsBitZero : Obligations.LsbStepForgetsBitZero := by
  refine ⟨fun _ _ => nextReg_lsbOut_eq_iff, fun hinj => ?_, fun r h n => ?_⟩
  · have h01 : nextReg .lsbOut 0#32 = nextReg .lsbOut 1#32 := nextReg_lsbOut_eq_iff.mpr (by decide)
    exact absurd (hinj h01) (by decide)
  · have h0 : nextReg .lsbOut r = nextReg .lsbOut 0#32 := nextReg_lsbOut_eq_iff.mpr h
    rw [nextRegs, h0, nextReg_zero, nextRegs_zero_reg]

/-- Settles O22: an injective function on a finite type is a bijection. -/
theorem msbStepIsBijective : Obligations.MsbStepIsBijective :=
  nextReg_msbOut_injective.bijective_of_finite

theorem xor_reverse (a b c d : Bit) : (a ^^ b ^^ c ^^ d) = (d ^^ c ^^ b ^^ a) := by revert a b c d; decide

/-- Settles O23: output `k + 32` is the feedback bit of register `k`, whose tap bits are outputs `k` to `k + 31`. -/
theorem keystreamRecurrences : Obligations.KeystreamRecurrences := by
  intro seed k
  constructor
  · have tap (j : Nat) (hj : j < 32) : outAt .lsbOut seed (k + j) = (nextRegs .lsbOut k seed).getLsbD j :=
      outAt_add .lsbOut seed k hj
    rw [outAt_add_32, feedback_eq, tap 31 (by decide), tap 6 (by decide), tap 5 (by decide), tap 1 (by decide)]
    exact xor_reverse _ _ _ _
  · have tap (j : Nat) (hj : j < 32) : outAt .msbOut seed (k + j) = (nextRegs .msbOut k seed).getLsbD (31 - j) :=
      outAt_add .msbOut seed k hj
    rw [outAt_add_32, feedback_eq, tap 30 (by decide), tap 26 (by decide), tap 25 (by decide)]
    exact congrArg _ (tap 0 (by decide)).symm

/-- Settles O18: both shift forms bit by bit. -/
theorem lfsrStepShiftsFeedbackIn : Obligations.LfsrStepShiftsFeedbackIn := by
  intro r
  refine ⟨feedback_eq r, rfl, BitVec.eq_of_getLsbD_eq fun i hi => ?_, rfl, BitVec.eq_of_getLsbD_eq fun i hi => ?_⟩
  · rw [nextReg_lsbOut_bit]
    obtain hlt | rfl : i < 31 ∨ i = 31 := by omega
    · simp [hi, hlt, Nat.add_comm]
    · simp
  · rcases i with _ | i
    · rw [nextReg_msbOut_bit_zero]; simp
    · rw [nextReg_msbOut_bit_succ _ (by omega)]; simp [hi, show i < 32 by omega]

/-- Settles O19: the register is 0 before the last step. -/
theorem zeroRegisterStaysZero : Obligations.ZeroRegisterStaysZero := by
  intro o g n h
  have hreg : (g.steps o n).reg = 0#32 := by rw [Generator.steps_reg, h, nextRegs_zero_reg]
  simp [Generator.steps_succ, -Generator.steps_reg, hreg]

end Sys2Proof.Machine
end

section
/-! A generator's history and its replay from the stored seed (spec/40_generator.md R104, R115). -/

namespace Sys2Proof.Machine

section Push
variable {h : List Bit} (b : Bit)

theorem pushHist_of_lt (hh : h.length < 64) : pushHist h b = h ++ [b] := if_pos hh

theorem pushHist_of_full (hh : h.length = 64) : pushHist h b = h.tail ++ [b] := if_neg (by simp [hh, Config.histCap])

end Push

/-- The outputs of the first `n` steps, the history's last 64 of them: R104. -/
def lastOutputs (o : Orient) (seed : Bits32) (n : Nat) : List Bit := ((List.range n).map (outAt o seed)).drop (n - 64)

section Replay
variable (o : Orient) (seed : Bits32) (n : Nat)

theorem lastOutputs_length : (lastOutputs o seed n).length = min n 64 := by
  simp only [lastOutputs, List.length_drop, List.length_map, List.length_range]
  omega

/-- The push keeps the history at the last 64 outputs, before it is full and after. -/
theorem lastOutputs_succ : lastOutputs o seed (n + 1) = pushHist (lastOutputs o seed n) (outAt o seed n) := by
  have hlen := lastOutputs_length o seed n
  have happend : lastOutputs o seed (n + 1) =
      ((List.range n).map (outAt o seed)).drop (n + 1 - 64) ++ [outAt o seed n] := by
    rw [lastOutputs, List.range_succ, List.map_append, List.drop_append_of_le_length (by simp), List.map_singleton]
  rw [happend]
  obtain hn | hn : n < 64 ∨ 64 ≤ n := by omega
  · rw [pushHist_of_lt _ (by omega), lastOutputs, show n + 1 - 64 = n - 64 by omega]
  · rw [pushHist_of_full _ (by omega), lastOutputs, List.tail_drop, show n + 1 - 64 = n - 64 + 1 by omega]

theorem Generator.replay_succ : Generator.replay o seed (n + 1) = (Generator.replay o seed n).step o :=
  Generator.steps_succ o n _

@[simp] theorem Generator.replay_reg : (Generator.replay o seed n).reg = nextRegs o n seed := by
  simp [Generator.replay]

@[simp] theorem Generator.replay_count : (Generator.replay o seed n).count = n := by simp [Generator.replay]

theorem Generator.replay_hist : (Generator.replay o seed n).hist = lastOutputs o seed n := by
  induction n with
  | zero => rfl
  | succ n ih => rw [Generator.replay_succ, Generator.step_hist, ih, Generator.replay_reg, lastOutputs_succ, outAt]

end Replay

/-- The three generators of a state that meets the invariant are replays: R115. -/
theorem State.Inv.select_replayed {s : State} (hi : s.Inv) (sel : GenSel) : (s.select sel).Replayed s.orient := by
  cases sel with
  | gen => exact hi.gen_replayed
  | tx => exact hi.session_inv.tx_replayed
  | rx => exact hi.session_inv.rx_replayed

/-- Settles O24: `Generator.replay_hist`, by induction on the steps. -/
theorem historyHoldsLastOutputs : Obligations.HistoryHoldsLastOutputs := by
  refine ⟨fun _ => pushHist_of_lt, fun _ => pushHist_of_full, fun o seed n => ⟨Generator.replay_hist o seed n, ?_⟩⟩
  rw [Generator.replay_hist, lastOutputs_length, Generator.replay_count]

/-- Settles O45: the invariant holds in every reachable state. -/
theorem reachableGeneratorsReplaySeed : Obligations.ReachableGeneratorsReplaySeed :=
  fun _ sel hs => hs.inv.select_replayed sel

end Sys2Proof.Machine
end

section
/-! The commands on the standalone generator, and PEEK (spec/40_generator.md R103 to R113): what each answers. -/

namespace Sys2Proof.Machine

section Exec
variable (s : State)

theorem exec_gstep : exec .gstep s = .next ((s.setGen (s.gen.step s.orient)).setRsp (some ⟨.ok,
    packTriple (nextReg s.orient s.gen.reg) (outputBit s.orient s.gen.reg) (feedback s.gen.reg)⟩)) := rfl

theorem exec_greset : exec .greset s = .next ((s.setGen s.gen.restart).setRsp (some ⟨.ok, 0⟩)) := rfl

theorem exec_gseed (seed : Bits32) :
    exec (.gseed seed) s = .next ((s.setGen (Generator.construct seed)).setRsp (some ⟨.ok, 0⟩)) := rfl

/-- PEEK answers the register zero-extended: R113. -/
theorem exec_peek (sel : GenSel) :
    exec (peekInstr sel) s = .next (s.setRsp (some ⟨.ok, 0#16 ++ (s.select sel).reg⟩)) := by
  have zext (r : Bits32) : r.setWidth 48 = 0#16 ++ r := BitVec.setWidth_eq_append (by decide)
  rw [← zext]
  cases sel <;> rfl

end Exec

/-- The `<g>_reg` port while the ports are defined: R45, R46. -/
theorem State.genPorts_reg {s : State} (h : s.cmdReady = true) (sel : GenSel) :
    (s.genPorts sel).reg = (s.select sel).reg := by
  rw [State.genPorts, State.generatorPorts_of_ready h]
  rfl

/-- Settles O25: a step field by field, and `exec_gstep`. -/
theorem gstepStepsGen : Obligations.GstepStepsGen := ⟨fun _ _ => rfl, exec_gstep⟩

/-- Settles O26: a restarted generator restarts to itself, as its stored seed is kept. -/
theorem gresetRestoresStoredSeed : Obligations.GresetRestoresStoredSeed := by
  refine ⟨fun _ => rfl, exec_greset, fun s t h => ?_⟩
  obtain rfl := Host.Outcome.next.inj ((exec_greset s).symm.trans h)
  exact exec_greset _

/-- Settles O27: a step keeps the stored seed, so the reset after it constructs from the operand again. -/
theorem gseedReplacesSeed : Obligations.GseedReplacesSeed := by
  refine ⟨fun _ => rfl, fun seed s => exec_gseed s seed, fun seed s t u v ht hu hv => ?_⟩
  obtain rfl := Host.Outcome.next.inj ((exec_gseed s seed).symm.trans ht)
  obtain rfl := Host.Outcome.next.inj ((exec_gstep _).symm.trans hu)
  obtain rfl := Host.Outcome.next.inj ((exec_greset _).symm.trans hv)
  simp [Generator.restart]

/-- Settles O28: PEEK of each generator, and the port that shows the same register. -/
theorem peekReadsRegister : Obligations.PeekReadsRegister := fun s =>
  ⟨exec_peek s .gen, exec_peek s .tx, exec_peek s .rx, fun hready =>
    ⟨State.genPorts_reg hready .gen, State.genPorts_reg hready .tx, State.genPorts_reg hready .rx⟩⟩

end Sys2Proof.Machine
end

section
/-! The session commands other than DESYNC (spec/41_cipher.md R120 to R131): what each answers, the phase it leaves, and
the bytes that come of it. -/

namespace Sys2Proof.Machine

section Exec
variable {s : State}

theorem exec_setin_of_zero (d : Byte) (h : s.session.cursor.val = 0) : exec (.setin d) s =
    .next ((s.setSession { s.session with inp := d }).setRsp (some ⟨.ok, 0⟩)) :=
  if_neg (by simp [Session.locked, h])

theorem exec_setin_of_ne_zero (d : Byte) (h : s.session.cursor.val ≠ 0) :
    exec (.setin d) s = .next (s.setRsp (some ⟨.rejState, 0⟩)) :=
  if_pos (by simp [Session.locked, h])

theorem exec_submit_of_lt (h : s.session.cursor.val < 8) : exec .submit s =
    .next ((s.setSession (s.session.afterPulse s.orient)).setRsp
      (some ⟨.ok, 0#39 ++ (s.session.pulse s.orient).pack⟩)) := by
  have zext (x : BitVec 9) : x.setWidth 48 = 0#39 ++ x := BitVec.setWidth_eq_append (by decide)
  rw [exec, execSubmit, if_neg h.ne, zext]
  rfl

theorem exec_submit_of_eq (h : s.session.cursor.val = 8) :
    exec .submit s = .next (s.setRsp (some ⟨.rejState, 0⟩)) :=
  if_pos h

theorem exec_complete_of_eq (h : s.session.cursor.val = 8) :
    exec .complete s = .next ((s.setSession s.session.nextByte).setRsp (some ⟨.ok, 0⟩)) :=
  if_neg (not_not_intro h)

theorem exec_complete_of_ne (h : s.session.cursor.val ≠ 8) :
    exec .complete s = .next (s.setRsp (some ⟨.rejState, 0⟩)) :=
  if_pos h

theorem exec_desync_of_synced (h : s.session.sync = true) : exec .desync s =
    .next ((s.setSession (s.session.desynced s.orient s.draw)).setRsp (some ⟨.ok, BitVec.ofNat 48 s.draw⟩)) :=
  if_pos h

theorem exec_desync_of_desynced (h : s.session.sync = false) :
    exec .desync s = .next (s.setRsp (some ⟨.rejState, 0⟩)) :=
  if_neg (by simp [h])

theorem exec_sseed (seed : Bits32) (s : State) :
    exec (.sseed seed) s = .next ((s.setSession (Session.fresh seed)).setRsp (some ⟨.ok, 0⟩)) := rfl

theorem exec_sreset (s : State) : exec .sreset s = exec (.sseed Config.defaultSeed) s := rfl

end Exec

/-- Settles O29: `SETIN` by whether the cursor is 0. -/
theorem setinLoadsBufferAtCursorZero : Obligations.SetinLoadsBufferAtCursorZero :=
  fun d _ => ⟨exec_setin_of_zero d, exec_setin_of_ne_zero d⟩

/-- Settles O32: `COMPLETE` by whether the cursor is 8. -/
theorem completeClearsByteOnly : Obligations.CompleteClearsByteOnly :=
  fun _ => ⟨exec_complete_of_eq, exec_complete_of_ne⟩

/-- Settles O33: both leave a fresh session, SRESET that of the default seed. -/
theorem sessionResetsRewriteSession : Obligations.SessionResetsRewriteSession :=
  ⟨exec_sseed, fun s => (exec_sreset s).trans (exec_sseed _ s), fun s => (exec_sreset s).symm⟩

section Pulse
variable {o : Orient} {S : Session}

theorem Session.pulse_index (h : S.cursor.val < 8) : (S.pulse o).index.val = S.cursor.val := Nat.mod_eq_of_lt h

theorem Session.pulse_d : (S.pulse o).d = ((S.pulse o).p ^^ (S.pulse o).kTx ^^ (S.pulse o).kRx) := rfl

/-- The decrypted bit is the plaintext bit exactly when the two keystream bits cancel. -/
theorem Session.pulse_matched_iff : (S.pulse o).matched = true ↔ (S.pulse o).kTx = (S.pulse o).kRx := by
  have cancel (p a b : Bit) : matchedBit p (p ^^ a ^^ b) = true ↔ a = b := by revert p a b; decide
  exact cancel _ _ _

theorem Session.pulse_kRx_eq_kTx (h : S.rx = S.tx) : (S.pulse o).kRx = (S.pulse o).kTx := by
  simp only [Session.pulse, h]

theorem Session.pulse_d_eq_p (h : S.rx = S.tx) : (S.pulse o).d = (S.pulse o).p := by
  rw [Session.pulse_d, Session.pulse_kRx_eq_kTx h, Bool.xor_assoc, Bool.xor_self, Bool.xor_false]

end Pulse

/-- Writing entry `j` of a byte writes bit `7 - j` and no other. -/
theorem setEntry_bit (v : Byte) {j b : Nat} (x : Bit) (hj : j < 8) (hb : b < 8) :
    (setEntry v j x).getLsbD b = if b = 7 - j then x else v.getLsbD b := by
  have h := entryBit_setEntry v (7 - b) j x (by omega) hj
  have hiff : 7 - b = j ↔ b = 7 - j := by omega
  simpa only [entryBit, hiff, show 7 - (7 - b) = b by omega] using h

/-- Settles O30: the record is `Session.pulse`, the session `Session.afterPulse`. -/
theorem submitProcessesOneBit : Obligations.SubmitProcessesOneBit := by
  intro s
  refine ⟨exec_submit_of_eq, fun h => ⟨_, s.session.pulse s.orient, exec_submit_of_lt h, ?_⟩⟩
  exact ⟨Session.pulse_index h, rfl, rfl, rfl, rfl, rfl, rfl, rfl, rfl, fun _ => setEntry_bit _ _ h,
    fun _ => setEntry_bit _ _ h, fun _ => setEntry_bit _ _ h, rfl, cursor_next_val h, rfl, rfl, rfl, rfl, rfl, rfl,
    rfl, rfl⟩

section Phase
variable {S : Session}

theorem Session.phase_eq_awaitingInput_iff : S.phase = .awaitingInput ↔ S.cursor.val = 0 := by
  unfold Session.phase
  split_ifs with h0 h8
  · simp [h0]
  · simp [h8]
  · simp [h0]

theorem Session.phase_eq_byteComplete_iff : S.phase = .byteComplete ↔ S.cursor.val = 8 := by
  unfold Session.phase
  split_ifs with h0 h8
  · simp [h0]
  · simp [h8]
  · simp [h8]

theorem Session.phase_eq_transmitting_iff : S.phase = .transmitting ↔ 0 < S.cursor.val ∧ S.cursor.val < 8 := by
  have := S.cursor.isLt
  unfold Session.phase
  split_ifs with h0 h8
  · simp [h0]
  · simp [h8]
  · simp; omega

/-- A pulse leaves the last bit's cursor at 8, any other below. -/
theorem Session.afterPulse_phase (o : Orient) (h : S.cursor.val < 8) :
    (S.afterPulse o).phase = if S.cursor.val = 7 then .byteComplete else .transmitting := by
  have hc : (S.afterPulse o).cursor.val = S.cursor.val + 1 := cursor_next_val h
  split_ifs with h7
  · exact Session.phase_eq_byteComplete_iff.mpr (by omega)
  · exact Session.phase_eq_transmitting_iff.mpr (by omega)

end Phase

/-- Settles O36: the table's rows, the commands it names one by one; the others keep the cursor and so the phase. -/
theorem phaseTransitions : Obligations.PhaseTransitions := by
  intro i s
  have accepted : Status.ok = .rejState ↔ False := iff_of_false (by decide) id
  have rejected : Status.rejState = .rejState ↔ True := iff_of_true rfl trivial
  cases i with
  | gstep | greset | gseed | peekGen | peekTx | peekRx =>
    refine ⟨_, _, rfl, rfl, ?_⟩
    cases hp : s.session.phase <;> exact ⟨hp, accepted⟩
  | sreset | sseed =>
    refine ⟨_, _, rfl, rfl, ?_⟩
    cases s.session.phase <;> exact ⟨rfl, accepted⟩
  | setin d =>
    cases hp : s.session.phase with
    | awaitingInput =>
      exact ⟨_, _, exec_setin_of_zero d (Session.phase_eq_awaitingInput_iff.mp hp), rfl, hp, accepted⟩
    | transmitting =>
      obtain ⟨h0, -⟩ := Session.phase_eq_transmitting_iff.mp hp
      exact ⟨_, _, exec_setin_of_ne_zero d h0.ne', rfl, hp, rejected⟩
    | byteComplete =>
      have h8 := Session.phase_eq_byteComplete_iff.mp hp
      exact ⟨_, _, exec_setin_of_ne_zero d (by omega), rfl, hp, rejected⟩
  | submit =>
    cases hp : s.session.phase with
    | awaitingInput =>
      have h0 := Session.phase_eq_awaitingInput_iff.mp hp
      have h8 : s.session.cursor.val < 8 := by omega
      exact ⟨_, _, exec_submit_of_lt h8, rfl, (Session.afterPulse_phase _ h8).trans (if_neg (by omega)), accepted⟩
    | transmitting =>
      obtain ⟨-, h8⟩ := Session.phase_eq_transmitting_iff.mp hp
      exact ⟨_, _, exec_submit_of_lt h8, rfl, Session.afterPulse_phase _ h8, accepted⟩
    | byteComplete =>
      exact ⟨_, _, exec_submit_of_eq (Session.phase_eq_byteComplete_iff.mp hp), rfl, hp, rejected⟩
  | complete =>
    cases hp : s.session.phase with
    | awaitingInput =>
      have h0 := Session.phase_eq_awaitingInput_iff.mp hp
      exact ⟨_, _, exec_complete_of_ne (by omega), rfl, hp, rejected⟩
    | transmitting =>
      obtain ⟨-, h8⟩ := Session.phase_eq_transmitting_iff.mp hp
      exact ⟨_, _, exec_complete_of_ne h8.ne, rfl, hp, rejected⟩
    | byteComplete =>
      exact ⟨_, _, exec_complete_of_eq (Session.phase_eq_byteComplete_iff.mp hp), rfl, rfl, accepted⟩
  | desync =>
    cases hs : s.session.sync with
    | true =>
      refine ⟨_, _, exec_desync_of_synced hs, rfl, ?_⟩
      cases hp : s.session.phase <;> exact ⟨hp, iff_of_false nofun nofun⟩
    | false =>
      refine ⟨_, _, exec_desync_of_desynced hs, rfl, ?_⟩
      cases hp : s.session.phase <;> exact ⟨hp, iff_of_true rfl rfl⟩

/-- Two bytes that agree entry by entry are equal. -/
theorem byte_ext {v w : Byte} (h : ∀ j < 8, entryBit v j = entryBit w j) : v = w := by
  apply BitVec.eq_of_getLsbD_eq
  intro b hb
  have hj := h (7 - b) (by omega)
  rwa [entryBit, entryBit, show 7 - (7 - b) = b by omega] at hj

section FullByte
variable {o : Orient} {S : Session}

/-- Below the cursor every entry has its record: R37. -/
theorem Session.Inv.exists_record (hi : S.Inv o) {j : Nat} (hj : j < S.cursor.val) :
    ∃ r, S.pulses[j]? = some r ∧ S.RecordFits j r :=
  have hr := List.getElem?_eq_getElem (hi.pulse_count.symm ▸ hj)
  ⟨_, hr, hi.records_fit j _ hr⟩

/-- A full byte's buffer is its plaintext, whether synchronized or not: R37. -/
theorem Session.Inv.accP_eq_inp (hi : S.Inv o) (h : S.cursor.val = 8) : S.accP = S.inp := by
  refine byte_ext fun j hj => ?_
  obtain ⟨r, -, hf⟩ := hi.exists_record (h.symm ▸ hj)
  exact hf.accP_bit.trans hf.inp_bit.symm

/-- A full byte recorded in synchrony has decrypted to its plaintext: R123. -/
theorem Session.Inv.accD_eq_accP (hi : S.Inv o) (hs : S.sync = true) (h : S.cursor.val = 8) : S.accD = S.accP := by
  refine byte_ext fun j hj => ?_
  obtain ⟨r, hr, hf⟩ := hi.exists_record (h.symm ▸ hj)
  have hk : r.kRx = r.kTx := hi.synced_records hs r (List.mem_of_getElem? hr)
  rw [hf.accD_bit, hf.accP_bit, hf.d_eq, hf.e_eq, hk, Bool.xor_assoc, Bool.xor_self, Bool.xor_false]

end FullByte

/-- Settles O46: equal generators give equal keystream bits, which cancel. -/
theorem synchronyRecoversPlaintext : Obligations.SynchronyRecoversPlaintext := by
  refine ⟨fun s hs hsync h => ?_, fun s hs hsync h => ?_, fun s h => ?_⟩
  · have heq := hs.inv.session_inv.synced_eq hsync
    have hk := Session.pulse_kRx_eq_kTx (o := s.orient) heq
    exact ⟨_, _, exec_submit_of_lt h, rfl, hk, Session.pulse_d_eq_p heq,
      Session.pulse_matched_iff.mpr hk.symm⟩
  · have hi := hs.inv.session_inv
    exact ⟨hi.accD_eq_accP hsync h, hi.accP_eq_inp h⟩
  · exact ⟨_, _, exec_submit_of_lt h, rfl, Session.pulse_d, Session.pulse_matched_iff⟩

/-- Settles O47: with `m` bytes completed before, the byte at cursor 8 is byte `m + 1`. -/
theorem bytesContinueKeystream : Obligations.BytesContinueKeystream := by
  intro s hs h
  have hi := hs.inv.session_inv
  obtain ⟨m, hcount, hk⟩ := hi.keystream
  have hlen : s.session.pulses.length = 8 := hi.pulse_count.trans h
  refine ⟨m + 1, by omega, by omega, List.ext_getElem (by simp [hlen]) fun j hj _ => ?_⟩
  have hj' : j < s.session.pulses.length := by simpa using hj
  simpa using hk j _ (List.getElem?_eq_getElem hj')

/-- Settles O48: each record's bits XOR entry by entry, and so do the bytes. -/
theorem ciphertextIsXorOfKeystream : Obligations.CiphertextIsXorOfKeystream := by
  intro s kTx kRx hs _ hbits
  have hi := hs.inv.session_inv
  have entry (j : Nat) (hj : j < 8) : ∃ r ∈ s.session.pulses, s.session.RecordFits j r ∧
      entryBit kTx j = r.kTx ∧ entryBit kRx j = r.kRx := by
    obtain ⟨r, hr, hbitsR⟩ := hbits j hj
    exact ⟨r, List.mem_of_getElem? hr, hi.records_fit j r hr, hbitsR⟩
  have entryBit_xor (v w : Byte) (j : Nat) : entryBit (v ^^^ w) j = (entryBit v j ^^ entryBit w j) :=
    BitVec.getLsbD_xor
  refine ⟨byte_ext fun j hj => ?_, byte_ext fun j hj => ?_, fun hsync => byte_ext fun j hj => ?_⟩
  · obtain ⟨r, -, hf, htx, -⟩ := entry j hj
    rw [entryBit_xor, hf.accE_bit, hf.accP_bit, htx, hf.e_eq]
  · obtain ⟨r, -, hf, -, hrx⟩ := entry j hj
    rw [entryBit_xor, hf.accD_bit, hf.accE_bit, hrx, hf.d_eq]
  · obtain ⟨r, hmem, -, htx, hrx⟩ := entry j hj
    rw [htx, hrx, hi.synced_records hsync r hmem]

end Sys2Proof.Machine
end

section
/-! No nonzero register lies on a cycle of length 10 or less, in either orientation (spec/42_desync.md R153): the
outputs along such a cycle repeat, and the feedback makes them solve a linear system over the field of two elements. -/

namespace Sys2Proof.Machine

/-- Where bit `i` of a register stands, counted from the output end: R101. -/
def placeFromOutput (o : Orient) (i : Nat) : Nat :=
  match o with
  | .lsbOut => i
  | .msbOut => 31 - i

/-- Output `k` in the field of two elements, where XOR is addition. -/
def outField (o : Orient) (seed : Bits32) (k : Nat) : ZMod 2 := (outAt o seed k).toNat

section Outputs
variable {o : Orient} {r : Bits32} {n : Nat}

theorem placeFromOutput_lt {i : Nat} (hi : i < 32) : placeFromOutput o i < 32 := by
  cases o with
  | lsbOut => exact hi
  | msbOut => exact Nat.lt_succ_of_le (Nat.sub_le 31 i)

theorem bitFromOutput_placeFromOutput {i : Nat} (hi : i < 32) :
    bitFromOutput o r (placeFromOutput o i) = r.getLsbD i := by
  cases o with
  | lsbOut => rfl
  | msbOut => rw [placeFromOutput, bitFromOutput, show 31 - (31 - i) = i by omega]

/-- Bit `i` of register `k` is an output still to come. -/
theorem outAt_add_placeFromOutput (k : Nat) {i : Nat} (hi : i < 32) :
    outAt o r (k + placeFromOutput o i) = (nextRegs o k r).getLsbD i := by
  rw [outAt_add _ _ _ (placeFromOutput_lt hi), bitFromOutput_placeFromOutput hi]

theorem toNat_xor_cast (a b : Bit) : ((a ^^ b).toNat : ZMod 2) = a.toNat + b.toNat := by revert a b; decide

theorem toNat_cast_eq_zero_iff {b : Bit} : (b.toNat : ZMod 2) = 0 ↔ b = false := by revert b; decide

/-- The recurrences of R117 and R118 as one: an output is the sum of the four the taps held 32 steps before. -/
theorem outField_add_32 (k : Nat) : outField o r (k + 32) =
    outField o r (k + placeFromOutput o 1) + outField o r (k + placeFromOutput o 5) +
      outField o r (k + placeFromOutput o 6) + outField o r (k + placeFromOutput o 31) := by
  simp only [outField, outAt_add_32, feedback_eq, toNat_xor_cast]
  rw [outAt_add_placeFromOutput k (by decide), outAt_add_placeFromOutput k (by decide),
    outAt_add_placeFromOutput k (by decide), outAt_add_placeFromOutput k (by decide)]

/-- On a cycle of length `n` the outputs repeat after `n` steps. -/
theorem outField_periodic (h : nextRegs o n r = r) : Function.Periodic (outField o r) n := by
  intro k
  rw [outField, outAt, Nat.add_comm, nextRegs_add, h, outField, outAt]

/-- With places taken modulo the period `n ≤ 10`, the recurrence is a linear system in `c 0` to `c (n - 1)` over the
field of two elements; for each such `n`, in both orientations, it has only the zero solution. -/
theorem eq_zero_of_recurrence_of_periodic {c : Nat → ZMod 2} (hc : ∀ k, c (k + 32) =
      c (k + placeFromOutput o 1) + c (k + placeFromOutput o 5) + c (k + placeFromOutput o 6) +
        c (k + placeFromOutput o 31))
    (hp : Function.Periodic c n) (h0 : 0 < n) (h10 : n ≤ 10) : c 0 = 0 := by
  have system : ∀ k < 10, c ((k + 32) % n) =
      c ((k + placeFromOutput o 1) % n) + c ((k + placeFromOutput o 5) % n) + c ((k + placeFromOutput o 6) % n) +
        c ((k + placeFromOutput o 31) % n) := by
    intro k _
    simpa only [hp.map_mod_nat] using hc k
  clear hc hp
  cases o with
  | lsbOut =>
    simp only [placeFromOutput, Nat.forall_lt_succ_right] at system
    interval_cases n <;> grind
  | msbOut =>
    simp only [placeFromOutput, Nat.forall_lt_succ_right] at system
    interval_cases n <;> grind

/-- R153: the register after `j` steps lies on the same cycle, so each bit of `r`, output `j`, is 0. -/
theorem eq_zero_of_short_cycle (h : nextRegs o n r = r) (h0 : 0 < n) (h10 : n ≤ 10) : r = 0#32 := by
  have later (j : Nat) : outAt o r j = false := by
    have hj : nextRegs o n (nextRegs o j r) = nextRegs o j r := by
      rw [← nextRegs_add, Nat.add_comm, nextRegs_add, h]
    have hzero : outField o (nextRegs o j r) 0 = 0 :=
      eq_zero_of_recurrence_of_periodic outField_add_32 (outField_periodic hj) h0 h10
    exact toNat_cast_eq_zero_iff.mp hzero
  refine BitVec.eq_of_getLsbD_eq fun i hi => ?_
  have hbit := outAt_add_placeFromOutput (o := o) (r := r) 0 hi
  rw [later] at hbit
  exact hbit.symm.trans BitVec.getLsbD_zero.symm

end Outputs

end Sys2Proof.Machine
end

section
/-! DESYNC, the synchronization flag, and how far `rx` is ahead of `tx` (spec/42_desync.md R150 to R155). -/

namespace Sys2Proof.Machine

section Exec
variable {i : Instr} {s : State}

/-- Neither a session reset nor DESYNC: the flag stays, and `tx` and `rx` stay or are stepped once together. -/
theorem exec_moves_generators_together (s : State) (hr : isSessionReset i = false) (hd : i ≠ .desync) :
    ∃ t, exec i s = .next t ∧ t.orient = s.orient ∧ t.session.sync = s.session.sync ∧
      (t.session.tx = s.session.tx ∧ t.session.rx = s.session.rx ∨
        t.session.tx = s.session.tx.step s.orient ∧ t.session.rx = s.session.rx.step s.orient) := by
  cases i with
  | gstep | greset | gseed | peekGen | peekTx | peekRx => exact ⟨_, rfl, rfl, rfl, .inl ⟨rfl, rfl⟩⟩
  | setin d =>
    by_cases h : s.session.cursor.val = 0
    · exact ⟨_, exec_setin_of_zero d h, rfl, rfl, .inl ⟨rfl, rfl⟩⟩
    · exact ⟨_, exec_setin_of_ne_zero d h, rfl, rfl, .inl ⟨rfl, rfl⟩⟩
  | submit =>
    by_cases h : s.session.cursor.val = 8
    · exact ⟨_, exec_submit_of_eq h, rfl, rfl, .inl ⟨rfl, rfl⟩⟩
    · exact ⟨_, exec_submit_of_lt (by omega), rfl, rfl, .inr ⟨rfl, rfl⟩⟩
  | complete =>
    by_cases h : s.session.cursor.val = 8
    · exact ⟨_, exec_complete_of_eq h, rfl, rfl, .inl ⟨rfl, rfl⟩⟩
    · exact ⟨_, exec_complete_of_ne h, rfl, rfl, .inl ⟨rfl, rfl⟩⟩
  | desync => exact absurd rfl hd
  | sreset | sseed => nomatch hr

/-- With the flag 0, no command but a session reset sets it or moves one generator without the other: R155. -/
theorem exec_of_desynced (hr : isSessionReset i = false) (hs : s.session.sync = false) :
    ∃ t, exec i s = .next t ∧ t.orient = s.orient ∧ t.session.sync = false ∧
      (t.session.tx = s.session.tx ∧ t.session.rx = s.session.rx ∨
        t.session.tx = s.session.tx.step s.orient ∧ t.session.rx = s.session.rx.step s.orient) := by
  by_cases hd : i = .desync
  · subst hd
    exact ⟨_, exec_desync_of_desynced hs, rfl, hs, .inl ⟨rfl, rfl⟩⟩
  · have h := exec_moves_generators_together s hr hd
    rwa [hs] at h

end Exec

section RxAhead
variable {o : Orient} {n : Nat} {S S' : Session}

theorem Session.rxAhead_desynced (h : S.rx = S.tx) : (S.desynced o n).RxAhead o n :=
  ⟨rfl, by simp [h], by simp [h]⟩

theorem Session.RxAhead.congr (ha : S.RxAhead o n) (hs : S'.sync = false) (htx : S'.tx = S.tx) (hrx : S'.rx = S.rx) :
    S'.RxAhead o n := by
  obtain ⟨-, hreg, hcount⟩ := ha
  exact ⟨hs, by rw [htx, hrx, hreg], by rw [htx, hrx, hcount]⟩

theorem Session.RxAhead.step (ha : S.RxAhead o n) (hs : S'.sync = false) (htx : S'.tx = S.tx.step o)
    (hrx : S'.rx = S.rx.step o) : S'.RxAhead o n := by
  obtain ⟨-, hreg, hcount⟩ := ha
  refine ⟨hs, ?_, ?_⟩
  · rw [htx, hrx, Generator.step_reg, Generator.step_reg, hreg, ← nextRegs_succ, nextRegs]
  · rw [htx, hrx, Generator.step_count, Generator.step_count, hcount, Nat.add_right_comm]

/-- If the registers are equal, `tx`'s lies on a cycle of length `n`. -/
theorem Session.RxAhead.reg_eq_iff (ha : S.RxAhead o n) (h0 : 0 < n) (h10 : n ≤ 10) :
    S.tx.reg = S.rx.reg ↔ S.tx.reg = 0#32 := by
  obtain ⟨-, hreg, -⟩ := ha
  constructor
  · exact fun h => eq_zero_of_short_cycle (hreg.symm.trans h.symm) h0 h10
  · exact fun h => by rw [hreg, h, nextRegs_zero_reg]

end RxAhead

/-- Settles O49: `rx` = `tx` before DESYNC, the generators then move together, and no nonzero register is on a cycle of
length 10 or less. -/
theorem rxStaysExactlyAhead : Obligations.RxStaysExactlyAhead := by
  refine ⟨fun s hs hsync => ?_, fun n i s hr ha => ?_, fun n o S h3 h10 ha => ha.reg_eq_iff (by omega) h10⟩
  · exact ⟨_, exec_desync_of_synced hsync, Session.rxAhead_desynced (hs.inv.session_inv.synced_eq hsync)⟩
  · have hs : s.session.sync = false := ha.1
    obtain ⟨t, h, ho, hsync, ⟨htx, hrx⟩ | ⟨htx, hrx⟩⟩ := exec_of_desynced hr hs
    · exact ⟨t, h, ho ▸ ha.congr hsync htx hrx⟩
    · exact ⟨t, h, ho ▸ ha.step hsync htx hrx⟩

/-- Settles O34: DESYNC by the flag, and what steps do to a generator's fields. -/
theorem desyncStepsRxAlone : Obligations.DesyncStepsRxAlone := by
  refine fun s => ⟨fun h => ⟨_, exec_desync_of_synced h, rfl, ?_⟩, exec_desync_of_desynced⟩
  exact ⟨Generator.steps_reg _ _ _, Generator.steps_count _ _ _, Generator.steps_seed _ _ _, rfl⟩

/-- Settles O37: the reset pin leaves a fresh session, and the commands but DESYNC and the session resets keep the flag
by `exec_moves_generators_together`. -/
theorem syncFlagMachine : Obligations.SyncFlagMachine := by
  refine ⟨fun s hrst => ?_, fun i s => ?_, fun s => exec_desync_of_desynced⟩
  · exact ⟨_, step_of_resets (by rw [PortInput.resets, hrst, Bool.true_or]), rfl⟩
  · cases i with
    | desync =>
      cases hs : s.session.sync with
      | true => exact ⟨_, exec_desync_of_synced hs, rfl⟩
      | false => exact ⟨_, exec_desync_of_desynced hs, hs⟩
    | sreset | sseed => exact ⟨_, rfl, rfl⟩
    | gstep | greset | gseed | peekGen | peekTx | peekRx | setin | submit | complete =>
      exact (exec_moves_generators_together s rfl (by nofun)).imp fun _ ⟨h, _, hsync, _⟩ => ⟨h, hsync⟩

theorem execAll_cons_of_next {i : Instr} {is : List Instr} {s t : State} (h : exec i s = .next t) :
    execAll (i :: is) s = execAll is t := by
  rw [execAll, h]

/-- Settles O38, by induction on the list of commands, each of which keeps the flag 0. -/
theorem desyncLastsUntilSessionReset : Obligations.DesyncLastsUntilSessionReset := by
  refine ⟨fun is => ?_, fun s t ht => ?_⟩
  · induction is with
    | nil => exact fun s _ hs => ⟨s, rfl, hs⟩
    | cons i is ih =>
      intro s hr hs
      obtain ⟨hri, hris⟩ := List.forall_mem_cons.mp hr
      obtain ⟨t, h, -, hsync, -⟩ := exec_of_desynced hri hs
      rw [execAll_cons_of_next h]
      exact ih t hris hsync
  · by_cases h : s.session.cursor.val = 8
    · obtain rfl := Host.Outcome.next.inj ((exec_complete_of_eq h).symm.trans ht)
      exact ⟨rfl, rfl⟩
    · obtain rfl := Host.Outcome.next.inj ((exec_complete_of_ne h).symm.trans ht)
      exact ⟨rfl, rfl⟩

/-- Settles O35: `n` has the one value `n - 3`. -/
theorem drawsAreThreeToTen : Obligations.DrawsAreThreeToTen := by
  refine ⟨draw_bounds, fun s n h3 h10 => ⟨BitVec.ofNat 3 (n - 3), ?_, fun r hr => ?_⟩⟩
  · simp only [State.draw, Config.desyncMin, BitVec.toNat_ofNat]
    omega
  · simp only [State.draw, Config.desyncMin] at hr
    exact BitVec.eq_of_toNat_eq (by rw [BitVec.toNat_ofNat]; omega)

end Sys2Proof.Machine
end

section
/-! Exceptions, of which the block has none (spec/60_exceptions.md R160 to R166): what is rejected and in which order,
that no run stops, and how many generator steps a command takes. -/

namespace Sys2Proof.Machine

/-! ## Runs -/

theorem run_succ_of_step {s t : State} (h : step s = .next t) (k : Nat) : core.run (k + 1) s = core.run k t := by
  have h' : core.step s = .next t := h
  simp only [Host.Core.run, h']

/-- R160: each step of a run answers a next state, so the run reaches every length. -/
theorem safe (s : State) : Safe s := by
  intro k
  induction k generalizing s with
  | zero => exact ⟨s, rfl⟩
  | succ k ih =>
    obtain ⟨u, hstep, -⟩ := step_keeps_orient s
    rw [run_succ_of_step hstep]
    exact ih u

/-- Settles O12: by `safe`, and as a command responds `OK` or is rejected. -/
theorem blockNeverStops : Obligations.BlockNeverStops := by
  refine ⟨safe, fun i s => ?_⟩
  obtain ⟨t, data, h⟩ | h := exec_responds_or_rejects i s
  · exact ⟨_, _, h, rfl, fun hrej => absurd rfl hrej⟩
  · exact ⟨_, _, h, rfl, fun _ => rfl⟩

/-! ## Rejections -/

theorem legalWord_eq_false_iff {w : CmdWord} : legalWord w = false ↔ ∀ i, decode w ≠ .ok i := by
  simp only [← Bool.not_eq_true, legalWord_iff, ← decode_eq_ok_iff, not_exists, ne_eq]

/-- Settles O7: the three branches of `serve`, and a command never answers `REJ_ILLEGAL`. -/
theorem rejectionPriority : Obligations.RejectionPriority := by
  refine ⟨fun s hrst => ?_, fun s hr hv hw => ?_, fun s hr hv hw => ?_⟩
  · exact ⟨_, step_of_resets (by rw [PortInput.resets, hrst, Bool.true_or]), rfl, rfl, rfl⟩
  · exact ⟨_, step_of_illegal hr hv (legalWord_eq_false_iff.mp hw), rfl⟩
  · obtain ⟨i, hi⟩ := legalWord_iff.mp hw
    obtain ⟨t, r, h, hrsp, hcases⟩ := exec_response i s.sample
    refine ⟨t, r, (step_of_decode hr hv (decode_eq_ok_iff.mpr hi)).trans h, hrsp, ?_⟩
    obtain hok | rfl := hcases
    · rw [hok]; decide
    · decide

section StateRejection
variable {i : Instr} {s t : State} {data : CmdWord} {cause : Prop}

/-- An accepted command meets what R161 says of a command whose cause is absent. -/
theorem stateRejection_of_accepted (h : exec i s = .next (t.setRsp (some ⟨.ok, data⟩))) (hcause : ¬ cause) :
    ∃ t r, exec i s = .next t ∧ t.rsp = some r ∧ (r.status = .rejState ↔ cause) ∧
      (r.status = .rejState → t = { s with rsp := some ⟨.rejState, 0#48⟩ }) :=
  ⟨_, _, h, rfl, iff_of_false nofun hcause, nofun⟩

/-- A rejected command meets what R161 says of a command whose cause is present. -/
theorem stateRejection_of_rejected (h : exec i s = .next (s.setRsp (some ⟨.rejState, 0⟩))) (hcause : cause) :
    ∃ t r, exec i s = .next t ∧ t.rsp = some r ∧ (r.status = .rejState ↔ cause) ∧
      (r.status = .rejState → t = { s with rsp := some ⟨.rejState, 0#48⟩ }) :=
  ⟨_, _, h, rfl, iff_of_true rfl hcause, fun _ => rfl⟩

end StateRejection

/-- Settles O14: the four rows of R161, each by whether its cause is present; the other commands are always accepted. -/
theorem stateRejectionCauses : Obligations.StateRejectionCauses := by
  intro i s
  cases i with
  | setin d =>
    by_cases h : s.session.cursor.val = 0
    · exact stateRejection_of_accepted (exec_setin_of_zero d h) (not_not_intro h)
    · exact stateRejection_of_rejected (exec_setin_of_ne_zero d h) h
  | submit =>
    by_cases h : s.session.cursor.val = 8
    · exact stateRejection_of_rejected (exec_submit_of_eq h) h
    · exact stateRejection_of_accepted (exec_submit_of_lt (by omega)) h
  | complete =>
    by_cases h : s.session.cursor.val = 8
    · exact stateRejection_of_accepted (exec_complete_of_eq h) (not_not_intro h)
    · exact stateRejection_of_rejected (exec_complete_of_ne h) h
  | desync =>
    cases h : s.session.sync with
    | true => exact stateRejection_of_accepted (exec_desync_of_synced h) (by simp)
    | false => exact stateRejection_of_rejected (exec_desync_of_desynced h) rfl
  | gstep | greset | gseed | peekGen | peekTx | peekRx | sreset | sseed =>
    exact stateRejection_of_accepted rfl not_false

/-- Settles O11: such an edge only samples its pins. -/
theorem idleEdgeChangesNothing : Obligations.IdleEdgeChangesNothing := fun _ hrst hv =>
  ⟨_, step_of_idle (by rw [PortInput.resets, hrst, hv]; rfl) hv, rfl, rfl, rfl, rfl⟩

/-! ## Generator steps -/

/-- Settles O13: the steps each command takes of `gen`, `tx` and `rx`; DESYNC's are the draw. -/
theorem commandsTakeBoundedSteps : Obligations.CommandsTakeBoundedSteps := by
  intro i s
  cases i with
  | gstep => exact ⟨_, _, exec_gstep s, rfl, 1, 0, 0, .inl rfl, .inl ⟨rfl, rfl⟩, le_rfl⟩
  | greset => exact ⟨_, _, exec_greset s, rfl, 0, 0, 0, .inr ⟨rfl, .inl rfl⟩, .inl ⟨rfl, rfl⟩, le_rfl⟩
  | gseed seed => exact ⟨_, _, exec_gseed s seed, rfl, 0, 0, 0, .inr ⟨rfl, .inr ⟨seed, rfl⟩⟩, .inl ⟨rfl, rfl⟩, le_rfl⟩
  | peekGen | peekTx | peekRx => exact ⟨_, _, rfl, rfl, 0, 0, 0, .inl rfl, .inl ⟨rfl, rfl⟩, le_rfl⟩
  | sreset | sseed => exact ⟨_, _, rfl, rfl, 0, 0, 0, .inl rfl, .inr ⟨rfl, rfl, rfl⟩, le_rfl⟩
  | setin d =>
    by_cases h : s.session.cursor.val = 0
    · exact ⟨_, _, exec_setin_of_zero d h, rfl, 0, 0, 0, .inl rfl, .inl ⟨rfl, rfl⟩, le_rfl⟩
    · exact ⟨_, _, exec_setin_of_ne_zero d h, rfl, 0, 0, 0, .inl rfl, .inl ⟨rfl, rfl⟩, le_rfl⟩
  | complete =>
    by_cases h : s.session.cursor.val = 8
    · exact ⟨_, _, exec_complete_of_eq h, rfl, 0, 0, 0, .inl rfl, .inl ⟨rfl, rfl⟩, le_rfl⟩
    · exact ⟨_, _, exec_complete_of_ne h, rfl, 0, 0, 0, .inl rfl, .inl ⟨rfl, rfl⟩, le_rfl⟩
  | submit =>
    by_cases h : s.session.cursor.val = 8
    · exact ⟨_, _, exec_submit_of_eq h, rfl, 0, 0, 0, .inl rfl, .inl ⟨rfl, rfl⟩, by decide⟩
    · exact ⟨_, _, exec_submit_of_lt (by omega), rfl, 0, 1, 1, .inl rfl, .inl ⟨rfl, rfl⟩, le_rfl⟩
  | desync =>
    obtain ⟨-, hdraw⟩ := draw_bounds s
    cases h : s.session.sync with
    | true => exact ⟨_, _, exec_desync_of_synced h, rfl, 0, 0, s.draw, .inl rfl, .inl ⟨rfl, rfl⟩, by simpa using hdraw⟩
    | false => exact ⟨_, _, exec_desync_of_desynced h, rfl, 0, 0, 0, .inl rfl, .inl ⟨rfl, rfl⟩, by decide⟩

end Sys2Proof.Machine
end

section
/-! The reset pin, and that the standalone generator and the session do not influence each other
(spec/70_reset_and_hazards.md R180 to R182, R190). -/

namespace Sys2Proof.Machine

/-! ## The reset pin -/

section Resets
variable {x : PortInput}

/-- R180: `rst` = 1 acts whatever the other pins show. -/
theorem PortInput.resets_of_rst (h : x.rst = true) : x.resets = true := by
  rw [PortInput.resets, h, Bool.true_or]

/-- R181: a reset in flight acts if there is a command for it to abandon. -/
theorem PortInput.resets_of_rstInFlight (hv : x.cmdValid = true) (hf : x.rstInFlight = true) : x.resets = true := by
  rw [PortInput.resets, hv, hf, Bool.and_true, Bool.or_true]

end Resets

/-- After an edge the block holds the pins it sampled there, whatever it did with them. -/
theorem step_pins (s : State) : ∃ t, step s = .next t ∧ t.pins = s.nextPins := by
  obtain ⟨g, S, r, -, h⟩ | h := step_cases s
  · exact ⟨_, h, rfl⟩
  · exact ⟨_, h, rfl⟩

/-- Settles O8: the pin leaves the state of `resetBlock`, and `cmd_ready` is read off the pins just sampled. -/
theorem resetPinResetsBlock : Obligations.ResetPinResetsBlock := by
  refine ⟨fun s hrst => ?_, fun s hr => ?_⟩
  · have hr := PortInput.resets_of_rst hrst
    exact ⟨_, step_of_resets hr, construct_default_eq_reset, fresh_default_eq_reset, ⟨_, rfl, rfl⟩,
      by simp [State.cmdReady_eq, hr], rfl⟩
  · obtain ⟨t, h, hpins⟩ := step_pins s
    exact ⟨t, h, by simp [State.cmdReady_eq, hpins, hr]⟩

/-- Settles O9: in all three steps the reset pin acts, and what `resetBlock` leaves in the block does not depend on the
word presented. -/
theorem resetAbandonsCommand : Obligations.ResetAbandonsCommand := by
  refine ⟨fun s hv hf => ?_, fun s x xs hrst => ?_⟩
  · exact ⟨_, step_of_resets (PortInput.resets_of_rstInFlight hv hf), rfl, construct_default_eq_reset,
      fresh_default_eq_reset⟩
  · have hr : x.resets = true := PortInput.resets_of_rst hrst
    have hr' : ({ x with cmdValid := false } : PortInput).resets = true := PortInput.resets_of_rst hrst
    exact ⟨_, _, step_of_resets hr, step_of_resets hr', rfl, rfl, rfl, rfl⟩

/-! ## The generator and the session -/

/-- What a command makes of the standalone generator: a function of that generator and the orientation alone. -/
def genAfter (o : Orient) (g : Generator) : Instr → Generator
  | .gstep => g.step o
  | .greset => g.restart
  | .gseed seed => Generator.construct seed
  | _ => g

/-- What a command makes of the session, `n` being the draw: a function of the session, the orientation and the draw
alone. -/
def sessionAfter (o : Orient) (n : Nat) (S : Session) : Instr → Session
  | .setin d => if S.cursor.val = 0 then { S with inp := d } else S
  | .submit => if S.cursor.val = 8 then S else S.afterPulse o
  | .complete => if S.cursor.val = 8 then S.nextByte else S
  | .desync => if S.sync then S.desynced o n else S
  | .sreset => Session.fresh Config.defaultSeed
  | .sseed seed => Session.fresh seed
  | _ => S

/-- R190: a command acts on the generator and on the session separately. -/
theorem exec_acts_separately (i : Instr) (s : State) : ∃ t, exec i s = .next t ∧
    t.gen = genAfter s.orient s.gen i ∧
    t.session = sessionAfter s.orient s.draw s.session i := by
  cases i with
  | gstep | greset | gseed | peekGen | peekTx | peekRx | sreset | sseed => exact ⟨_, rfl, rfl, rfl⟩
  | setin d =>
    by_cases h : s.session.cursor.val = 0
    · exact ⟨_, exec_setin_of_zero d h, rfl, (if_pos h).symm⟩
    · exact ⟨_, exec_setin_of_ne_zero d h, rfl, (if_neg h).symm⟩
  | submit =>
    by_cases h : s.session.cursor.val = 8
    · exact ⟨_, exec_submit_of_eq h, rfl, (if_pos h).symm⟩
    · exact ⟨_, exec_submit_of_lt (by omega), rfl, (if_neg h).symm⟩
  | complete =>
    by_cases h : s.session.cursor.val = 8
    · exact ⟨_, exec_complete_of_eq h, rfl, (if_pos h).symm⟩
    · exact ⟨_, exec_complete_of_ne h, rfl, (if_neg h).symm⟩
  | desync =>
    cases h : s.session.sync with
    | true => exact ⟨_, exec_desync_of_synced h, rfl, (if_pos h).symm⟩
    | false => exact ⟨_, exec_desync_of_desynced h, rfl, (if_neg (Bool.eq_false_iff.mp h)).symm⟩

/-- Settles O39: `exec_acts_separately` at the two states, which agree in all that the side compared depends on. -/
theorem genAndSessionIndependent : Obligations.GenAndSessionIndependent := by
  refine ⟨fun i s => ?frame, fun i s g => ?session, fun i s S => ?gen⟩
  case frame =>
    obtain ⟨t, h, hg, hS⟩ := exec_acts_separately i s
    refine ⟨t, h, ?_⟩
    cases i with
    | gstep | greset | gseed => exact hS
    | peekGen | peekTx | peekRx => exact ⟨hS, hg⟩
    | setin | submit | complete | desync | sreset | sseed => exact hg
  case session =>
    obtain ⟨t, ht, -, hS⟩ := exec_acts_separately i s
    obtain ⟨u, hu, -, hS'⟩ := exec_acts_separately i (s.setGen g)
    exact ⟨t, u, ht, hu, hS'.trans hS.symm⟩
  case gen =>
    obtain ⟨t, ht, hg, -⟩ := exec_acts_separately i s
    obtain ⟨u, hu, hg', -⟩ := exec_acts_separately i (s.setSession S)
    exact ⟨t, u, ht, hu, hg'.trans hg.symm⟩

end Sys2Proof.Machine
end
